-- ==== Sys2Proof/Word.lean ====
section
/-! DEFINITION. The word types of the block: payload bytes, 16-bit and 32-bit registers, and the 128-bit stimulus
word SW that encodes one event (30_encoding.md R83). All values are unsigned (00_scope.md R10). -/

namespace Sys2Proof

/-- A payload byte `D[i]`, a tag, LAST_IDX (00_scope.md R10). -/
abbrev Byte := BitVec 8

/-- A 16-bit register: CELL[k], HV, SOC, PERIOD[s] (10_state.md R21 to R23, R37). -/
abbrev HalfWord := BitVec 16

/-- What holds a tick counter CNT[s] and its ceiling CEIL. The counter is the CNT_W low bits, 16 in the reference
(00_scope.md R8, 10_state.md R33); 32 bits hold a counter of every width the document allows (92_eei_decisions.md D12, log
11). CEIL < 2^CNT_W (R9) keeps a counter in its width. -/
abbrev Count := BitVec 32

/-- A 32-bit register: PDATE, DISCARD_CTR (10_state.md R24, R38). -/
abbrev Word := BitVec 32

/-- A stimulus word or a TX record (30_encoding.md R83). -/
abbrev Sw := BitVec 128

/-- A standard CAN identifier (00_scope.md R13, 30_encoding.md R84 WF_ID). -/
abbrev StdId := BitVec 11

/-- An extended CAN identifier; 29 bits is the spec's general knowledge (93_implementation_defined.md G1, log 14). -/
abbrev ExtId := BitVec 29

/-- The timer slots that have registers and a place in a stimulus word: 0..9 (10_state.md R20, R33, 30_encoding.md R84
WF_SLOT). NSLOTS itself is `Config.numSlots` (log 11). -/
abbrev nSlots : Nat := 10

/-- The cell registers CELL[0..8], one for each of opcode rows 1 to 9 (10_state.md R21, 30_encoding.md R90). NCELLS itself is
`Config.numCells` (log 11). -/
abbrev nCells : Nat := 9

/-- The voltage fields the tags 0x00..0x09 address (30_encoding.md R86). NFIELD itself is `Config.numFields` (log 11). -/
abbrev nFields : Nat := 10

end Sys2Proof
end

