-- ==== Sys2Proof/Config.lean ====
section
/-! DEFINITION. The implementation parameters of 00_scope.md R8, their reference values, and the constraints of R9. -/

namespace Sys2Proof

/-- The two tick granularities: MS counts edges of T_MS, DS edges of T_DS (10_state.md R36). -/
inductive Gran where
  | ms
  | ds
deriving DecidableEq, Repr

/-- The code of a granularity: MS = 0, DS = 1 (10_state.md R36). -/
def Gran.code : Gran → BitVec 4
  | .ms => 0
  | .ds => 1

/-- The two receive queues, 0 primary and 1 secondary (30_encoding.md R80). -/
inductive Queue where
  | primary
  | secondary
deriving DecidableEq, Repr

/-- The code of a receive queue (30_encoding.md R80, R83). -/
def Queue.code : Queue → BitVec 4
  | .primary => 0
  | .secondary => 1

/-- PDATE_MODE: how the production date is assembled (00_scope.md R8, 20_memory.md R65). -/
inductive PdateMode where
  | bitOr
  | be32
deriving DecidableEq, Repr

/-- Q1_STD_POLICY: what the demux does with a standard frame on queue 1 (00_scope.md R8, 41_receive_demux.md R169). -/
inductive Q1StdPolicy where
  | discard
  | decode
deriving DecidableEq, Repr

/-- What a receive queue does with a frame that arrives when it is full: frames are lost or overwritten
(70_reset_and_hazards.md R292; which frame an overwriting one replaces is log 12). -/
inductive OverflowRule where
  | loseArriving
  | overwriteOldest
  | overwriteNewest
deriving DecidableEq, Repr

/-- The depth of a receive queue and its overflow rule (00_scope.md R8). -/
structure QueueSpec where
  depth : Nat
  overflow : OverflowRule
deriving DecidableEq, Repr

/-- Q_DEPTH: the depth and the overflow rule of each receive queue (00_scope.md R8, 92_eei_decisions.md D9). -/
structure QueueDepths where
  primary : QueueSpec
  secondary : QueueSpec
deriving DecidableEq, Repr

/-- The parameters of 00_scope.md R8, each a field. `Option` marks a parameter the spec leaves OPEN (log 12); no event reads
`filterFifo`, `filterIde`, `filterRtr`, `qDepth`, `bitrate`, `tq`, `fPclk`, `prescaler`: they describe the environment (R6,
60_exceptions.md R245, R253, R254). -/
structure Config where
  /-- RESP_ID, the only identifier the demux accepts. -/
  respId : StdId
  /-- REQ_ID, the identifier of request frames. -/
  reqId : StdId
  /-- REQ_PREFIX, request payload byte 0. -/
  reqByte0 : Byte
  /-- REQ_PREFIX, request payload byte 1. -/
  reqByte1 : Byte
  /-- REQ_PREFIX, request payload byte 2. -/
  reqByte2 : Byte
  /-- TAG_SOC. -/
  tagSoc : Byte
  /-- TAG_PDATE. -/
  tagPdate : Byte
  /-- NFIELD, the number of voltage fields the tags 0x00..0x09 address; the rules' figures fix it (log 11). -/
  numFields : Nat
  /-- NCELLS, the number of cell-voltage fields; the rules' figures fix it (log 11). -/
  numCells : Nat
  /-- NSLOTS, the number of slots a tick reaches (40_timer_service.md R123); at most the ten that have registers (log 11). -/
  numSlots : Fin (nSlots + 1)
  /-- POLL_SLOT. -/
  pollSlot : Fin nSlots
  /-- CEIL, the tick-counter ceiling. -/
  ceil : Count
  /-- CNT_W, the width of a tick counter. -/
  cntW : Nat
  /-- G_POLL. -/
  gPoll : Gran
  /-- P_POLL. -/
  pPoll : HalfWord
  /-- PDATE_MODE. -/
  pdateMode : PdateMode
  /-- Q1_STD_POLICY. -/
  q1StdPolicy : Q1StdPolicy
  /-- HAS_DISCARD_CTR. -/
  hasDiscardCtr : Bool
  /-- FILTER_FIFO (environment). -/
  filterFifo : Queue
  /-- The acceptance filter compares IDE and so passes standard frames only (environment; 60_exceptions.md R254,
  93_implementation_defined.md I4). -/
  filterIde : Bool
  /-- The acceptance filter compares RTR and so passes data frames only (environment; 60_exceptions.md R254,
  93_implementation_defined.md I4). -/
  filterRtr : Bool
  /-- Q_DEPTH (environment), OPEN. -/
  qDepth : Option QueueDepths
  /-- BITRATE in bit/s (environment). -/
  bitrate : Nat
  /-- TQ, time quanta per bit (environment). -/
  tq : Nat
  /-- F_PCLK (environment), OPEN. -/
  fPclk : Option Nat
  /-- PRESCALER (environment), OPEN. -/
  prescaler : Option Nat
deriving DecidableEq, Repr

/-- The reference column of 00_scope.md R8, and the reference filter of 60_exceptions.md R254, which passes standard frames
only; that it does not compare RTR is log 18. -/
def Config.reference : Config where
  respId := 0x72B
  reqId := 0x723
  reqByte0 := 0x03
  reqByte1 := 0x22
  reqByte2 := 0xD9
  tagSoc := 0x14
  tagPdate := 0x11
  numFields := 10
  numCells := 9
  numSlots := 10
  pollSlot := 1
  ceil := 10000
  cntW := 16
  gPoll := .ds
  pPoll := 10
  pdateMode := .bitOr
  q1StdPolicy := .discard
  hasDiscardCtr := false
  filterFifo := .primary
  filterIde := true
  filterRtr := false
  qDepth := none
  bitrate := 500000
  tq := 8
  fPclk := none
  prescaler := none

/-- The constraints of 00_scope.md R9 that the field types do not already force: the identifiers differ, the two
special tags lie outside 0x00..0x09 and differ, `1 <= P_POLL <= CEIL`, `CEIL < 2^CNT_W`, `POLL_SLOT < NSLOTS`. -/
def Config.meetsR9 (c : Config) : Bool :=
  c.respId != c.reqId
    && decide (9 < c.tagSoc.toNat) && decide (9 < c.tagPdate.toNat) && c.tagSoc != c.tagPdate
    && decide (1 ≤ c.pPoll.toNat) && decide (c.pPoll.toNat ≤ c.ceil.toNat)
    && decide (c.ceil.toNat < 2 ^ c.cntW) && decide (c.pollSlot.val < c.numSlots.val)

/-- NFIELD and NCELLS are the figures the rules write: tags 0x00..0x09, CELL[0..8] (00_scope.md R8, 10_state.md R21,
30_encoding.md R86, R90, 43_polling_fsm.md R214; log 11). -/
def Config.countsAgree (c : Config) : Bool := c.numFields == nFields && c.numCells == nCells

/-- A configuration the model runs: within 00_scope.md R9, with the counts the rules are written for (log 11). -/
def Config.legal (c : Config) : Bool := c.meetsR9 && c.countsAgree

/-- F_PCLK / (TQ x BITRATE) where F_PCLK is given and the quotient is an integer; otherwise OPEN (00_scope.md R8,
60_exceptions.md R253, 93_implementation_defined.md I12, log 12). -/
def Config.exactPrescaler (c : Config) : Option Nat :=
  match c.fPclk with
  | some f => if c.tq * c.bitrate ≠ 0 ∧ f % (c.tq * c.bitrate) = 0 then some (f / (c.tq * c.bitrate)) else none
  | none => none

/-- PRESCALER, where it is given, is F_PCLK / (TQ x BITRATE) wherever that is an integer (00_scope.md R8,
70_reset_and_hazards.md R283 step (3)); any other case is the environment's (92_eei_decisions.md D31). -/
def Config.prescalerAgrees (c : Config) : Bool :=
  match c.prescaler, c.exactPrescaler with
  | some p, some q => p == q
  | some _, none | none, some _ | none, none => true

end Sys2Proof
end

