-- ==== Sys2Proof/Syntax.lean ====
section
/-! DEFINITION. Frames and the 23 rows of the opcode table (30_encoding.md R80, R83, R90), one constructor of `Instr`
each. A row's constructor carries every operand of the word that the row does not fix. -/

namespace Sys2Proof

/-- The eight payload bytes `D[0]..D[7]` (20_memory.md R63). -/
structure Payload where
  d0 : Byte
  d1 : Byte
  d2 : Byte
  d3 : Byte
  d4 : Byte
  d5 : Byte
  d6 : Byte
  d7 : Byte
deriving DecidableEq, Repr

/-- An identifier with its frame type: standard is IDE = 0, extended is IDE = 1 (30_encoding.md R80). -/
inductive CanId where
  | std (id : StdId)
  | ext (id : ExtId)
deriving DecidableEq, Repr

/-- A CAN frame (30_encoding.md R80). DLC is 0..8 by its type (WF_DLC). -/
structure Frame where
  id : CanId
  rtr : Bool
  dlc : Fin 9
  data : Payload
deriving DecidableEq, Repr

/-- A received frame with the queue it arrived on (30_encoding.md R80, 41_receive_demux.md R150). -/
structure RxFrame where
  queue : Queue
  frame : Frame
deriving DecidableEq, Repr

/-- The operands of a response row (rows 1 to 13): everything but the tag `D[3]` and what the row fixes. -/
structure RespArgs where
  rtr : Bool
  dlc : Fin 9
  d0 : Byte
  d1 : Byte
  d2 : Byte
  d4 : Byte
  d5 : Byte
  d6 : Byte
  d7 : Byte
deriving DecidableEq, Repr

/-- The operands of a row that does not fix the payload (rows 14 to 17), but for the identifier. -/
structure FrameArgs where
  rtr : Bool
  dlc : Fin 9
  data : Payload
deriving DecidableEq, Repr

/-- The opcode rows of 30_encoding.md R90, in priority order. -/
inductive Instr where
  | rxCell0 (a : RespArgs)
  | rxCell1 (a : RespArgs)
  | rxCell2 (a : RespArgs)
  | rxCell3 (a : RespArgs)
  | rxCell4 (a : RespArgs)
  | rxCell5 (a : RespArgs)
  | rxCell6 (a : RespArgs)
  | rxCell7 (a : RespArgs)
  | rxCell8 (a : RespArgs)
  | rxHv (a : RespArgs)
  | rxPdate (a : RespArgs)
  | rxSoc (a : RespArgs)
  | rxTagOther (tag : Byte) (a : RespArgs)
  | rxIdMismatch (id : StdId) (a : FrameArgs)
  | rxExtQ0 (id : ExtId) (a : FrameArgs)
  | rxExtQ1 (id : ExtId) (a : FrameArgs)
  | rxStdQ1 (id : StdId) (a : FrameArgs)
  | tickMs
  | tickDs
  | loop
  | treset (slot : Fin nSlots) (g : Gran)
  | ack
  | txReq (p : Byte)
deriving DecidableEq, Repr

/-- The mnemonic of a row, as 30_encoding.md R90 and spec/opcode_table.json spell it. -/
def Instr.mnemonic : Instr → String
  | .rxCell0 _ => "RX_CELL0"
  | .rxCell1 _ => "RX_CELL1"
  | .rxCell2 _ => "RX_CELL2"
  | .rxCell3 _ => "RX_CELL3"
  | .rxCell4 _ => "RX_CELL4"
  | .rxCell5 _ => "RX_CELL5"
  | .rxCell6 _ => "RX_CELL6"
  | .rxCell7 _ => "RX_CELL7"
  | .rxCell8 _ => "RX_CELL8"
  | .rxHv _ => "RX_HV"
  | .rxPdate _ => "RX_PDATE"
  | .rxSoc _ => "RX_SOC"
  | .rxTagOther _ _ => "RX_TAG_OTHER"
  | .rxIdMismatch _ _ => "RX_ID_MISMATCH"
  | .rxExtQ0 _ _ => "RX_EXT_Q0"
  | .rxExtQ1 _ _ => "RX_EXT_Q1"
  | .rxStdQ1 _ _ => "RX_STD_Q1"
  | .tickMs => "TICK_MS"
  | .tickDs => "TICK_DS"
  | .loop => "LOOP"
  | .treset _ _ => "TRESET"
  | .ack => "ACK"
  | .txReq _ => "TX_REQ"

/-- The event classes of 00_scope.md R3, and the class of the output record (30_encoding.md R83). -/
inductive EventClass where
  | rx
  | tick
  | loop
  | treset
  | ack
  | tx
deriving DecidableEq, Repr

/-- The event class of a row (30_encoding.md R90). -/
def Instr.eventClass : Instr → EventClass
  | .rxCell0 _ | .rxCell1 _ | .rxCell2 _ | .rxCell3 _ | .rxCell4 _ | .rxCell5 _ | .rxCell6 _ | .rxCell7 _
  | .rxCell8 _ | .rxHv _ | .rxPdate _ | .rxSoc _ | .rxTagOther _ _ | .rxIdMismatch _ _ | .rxExtQ0 _ _
  | .rxExtQ1 _ _ | .rxStdQ1 _ _ => .rx
  | .tickMs | .tickDs => .tick
  | .loop => .loop
  | .treset _ _ => .treset
  | .ack => .ack
  | .txReq _ => .tx

end Sys2Proof
end

