-- ==== Sys2Proof/WellFormed.lean ====
section
/-! DEFINITION. Which instruction terms a stimulus word or record can spell. The bounds of 30_encoding.md R84 on Q, IDE,
RTR, DLC, ID, g and slot hold by the types of the operands; what is left is the priority of the opcode rows (R85, R90):
a catch-all row never spells a word that an earlier row takes. -/

namespace Sys2Proof

/-- A tag the demux recognises: 0x00..0x09, TAG_PDATE, TAG_SOC (30_encoding.md R86). -/
def Config.knownTag (c : Config) (t : Byte) : Bool :=
  decide (t.toNat ≤ 9) || t == c.tagPdate || t == c.tagSoc

/-- `RX_TAG_OTHER` holds no recognised tag (41_receive_demux.md R165); `RX_ID_MISMATCH` does not hold RESP_ID (R166). -/
def Instr.wf (c : Config) : Instr → Bool
  | .rxTagOther t _ => !c.knownTag t
  | .rxIdMismatch id _ => id != c.respId
  | .rxCell0 _ | .rxCell1 _ | .rxCell2 _ | .rxCell3 _ | .rxCell4 _ | .rxCell5 _ | .rxCell6 _ | .rxCell7 _
  | .rxCell8 _ | .rxHv _ | .rxPdate _ | .rxSoc _ | .rxExtQ0 _ _ | .rxExtQ1 _ _ | .rxStdQ1 _ _
  | .tickMs | .tickDs | .loop | .treset _ _ | .ack | .txReq _ => true

/-- The terms that are events of the block's input alphabet: all but the output record (30_encoding.md R84 WF_EC, R90). -/
def Instr.isInput (i : Instr) : Bool :=
  i.eventClass != .tx

end Sys2Proof
end

