-- ==== Sys2Proof/Decode.lean ====
section
/-! DEFINITION. The stimulus word (30_encoding.md R83), its named checks (R84), the decoder (R85, R90), the encoder, and
the opcode table as rows of mask and match (R90, spec/opcode_table.json). -/

namespace Sys2Proof

/-! ## Fields of the word (R83) -/

/-- SW[127:120], the event class code EC. -/
def swEc (w : Sw) : Byte := w.extractLsb' 120 8
/-- SW[119:116], field A: Q or g. -/
def swA (w : Sw) : BitVec 4 := w.extractLsb' 116 4
/-- SW[115:112], field B: IDE or slot. -/
def swB (w : Sw) : BitVec 4 := w.extractLsb' 112 4
/-- SW[111:108], field C: RTR. -/
def swC (w : Sw) : BitVec 4 := w.extractLsb' 108 4
/-- SW[107:104], DLC. -/
def swDlc (w : Sw) : BitVec 4 := w.extractLsb' 104 4
/-- SW[103:96], reserved. -/
def swReserved (w : Sw) : Byte := w.extractLsb' 96 8
/-- SW[95:64], the identifier zero-extended to 32 bits. -/
def swId (w : Sw) : Word := w.extractLsb' 64 32
/-- SW[63:0], DATA. -/
def swData (w : Sw) : BitVec 64 := w.extractLsb' 0 64

/-- `D[i] = SW[63-8i : 56-8i]` (R83). -/
def payloadOf (x : BitVec 64) : Payload where
  d0 := x.extractLsb' 56 8
  d1 := x.extractLsb' 48 8
  d2 := x.extractLsb' 40 8
  d3 := x.extractLsb' 32 8
  d4 := x.extractLsb' 24 8
  d5 := x.extractLsb' 16 8
  d6 := x.extractLsb' 8 8
  d7 := x.extractLsb' 0 8

/-- DATA of a payload, `D[0]` in the high byte (R83). -/
def Payload.bits (p : Payload) : BitVec 64 :=
  p.d0 ++ p.d1 ++ p.d2 ++ p.d3 ++ p.d4 ++ p.d5 ++ p.d6 ++ p.d7

/-- A word from its fields, high field first (R83). -/
def mkSw (ec : Byte) (a b c dlc : BitVec 4) (reserved : Byte) (id : Word) (data : BitVec 64) : Sw :=
  ec ++ a ++ b ++ c ++ dlc ++ reserved ++ id ++ data

/-! ## Well-formedness of a word (R84) -/

/-- The named checks of R84. -/
inductive WfCheck where
  | wfEc
  | wfZero
  | wfQ
  | wfIde
  | wfRtr
  | wfDlc
  | wfId
  | wfG
  | wfSlot
deriving DecidableEq, Repr

/-- The first check of R84 an RX word fails, in the order R84 lists them (log 15). -/
def failedRxCheck (w : Sw) : Option WfCheck :=
  if swReserved w ≠ 0 then some .wfZero
  else if 1 < (swA w).toNat then some .wfQ
  else if 1 < (swB w).toNat then some .wfIde
  else if 1 < (swC w).toNat then some .wfRtr
  else if 8 < (swDlc w).toNat then some .wfDlc
  else if swB w = 0 then (if (swId w).toNat < 0x800 then none else some .wfId)
  else if (swId w).toNat < 0x20000000 then none else some .wfId

/-- The first check of R84 a word fails; `none` says the word is admitted as an input event. -/
def failedCheck (w : Sw) : Option WfCheck :=
  if swEc w = 0x01 then failedRxCheck w
  else if swEc w = 0x02 then
    if w.extractLsb' 0 116 ≠ 0 then some .wfZero
    else if 1 < (swA w).toNat then some .wfG else none
  else if swEc w = 0x03 then
    if w.extractLsb' 0 120 ≠ 0 then some .wfZero else none
  else if swEc w = 0x04 then
    if w.extractLsb' 0 112 ≠ 0 then some .wfZero
    else if 1 < (swA w).toNat then some .wfG
    else if 9 < (swB w).toNat then some .wfSlot else none
  else if swEc w = 0x05 then
    if w.extractLsb' 0 120 ≠ 0 then some .wfZero else none
  else some .wfEc

/-- A word admitted as an input event (R84). -/
def admitted (w : Sw) : Bool := failedCheck w == none

/-! ## The decoder (R85, R90) -/

/-- A one-bit flag in a 4-bit field; for an admitted word the field is 0 or 1 (R84). -/
def bitOf (x : BitVec 4) : Bool := x == 1

/-- The code of a one-bit flag in a 4-bit field. -/
def codeOfBit (b : Bool) : BitVec 4 := if b then 1 else 0

/-- DLC of an admitted word, 0..8 (R84 WF_DLC). -/
def dlcOf (w : Sw) : Fin 9 := Fin.ofNat 9 (swDlc w).toNat

/-- The granularity operand of an admitted word (R84 WF_G). -/
def granOf (w : Sw) : Gran := if swA w = 0 then .ms else .ds

/-- The slot operand of an admitted word (R84 WF_SLOT). -/
def slotOf (w : Sw) : Fin nSlots := Fin.ofNat nSlots (swB w).toNat

/-- The operands of a response row. -/
def respArgsOf (w : Sw) : RespArgs where
  rtr := bitOf (swC w)
  dlc := dlcOf w
  d0 := (payloadOf (swData w)).d0
  d1 := (payloadOf (swData w)).d1
  d2 := (payloadOf (swData w)).d2
  d4 := (payloadOf (swData w)).d4
  d5 := (payloadOf (swData w)).d5
  d6 := (payloadOf (swData w)).d6
  d7 := (payloadOf (swData w)).d7

/-- The operands of a row that does not fix the payload. -/
def frameArgsOf (w : Sw) : FrameArgs where
  rtr := bitOf (swC w)
  dlc := dlcOf w
  data := payloadOf (swData w)

/-- Rows 1 to 13: a standard frame from RESP_ID on the primary queue, by its tag `D[3]` (R86, R90). -/
def decodeResponse (c : Config) (t : Byte) (a : RespArgs) : Instr :=
  if t = 0x00 then .rxCell0 a
  else if t = 0x01 then .rxCell1 a
  else if t = 0x02 then .rxCell2 a
  else if t = 0x03 then .rxCell3 a
  else if t = 0x04 then .rxCell4 a
  else if t = 0x05 then .rxCell5 a
  else if t = 0x06 then .rxCell6 a
  else if t = 0x07 then .rxCell7 a
  else if t = 0x08 then .rxCell8 a
  else if t = 0x09 then .rxHv a
  else if t = c.tagPdate then .rxPdate a
  else if t = c.tagSoc then .rxSoc a
  else .rxTagOther t a

/-- Rows 1 to 17: an admitted RX word (R90). -/
def decodeRx (c : Config) (w : Sw) : Instr :=
  if swA w = 0 then
    if swB w = 0 then
      if swId w = c.respId.setWidth 32 then decodeResponse c (payloadOf (swData w)).d3 (respArgsOf w)
      else .rxIdMismatch ((swId w).setWidth 11) (frameArgsOf w)
    else .rxExtQ0 ((swId w).setWidth 29) (frameArgsOf w)
  else
    if swB w = 0 then .rxStdQ1 ((swId w).setWidth 11) (frameArgsOf w)
    else .rxExtQ1 ((swId w).setWidth 29) (frameArgsOf w)

/-- Rows 1 to 22: an admitted word of any class (R90). -/
def decodeInput (c : Config) (w : Sw) : Instr :=
  if swEc w = 0x01 then decodeRx c w
  else if swEc w = 0x02 then (if swA w = 0 then .tickMs else .tickDs)
  else if swEc w = 0x03 then .loop
  else if swEc w = 0x04 then .treset (slotOf w) (granOf w)
  else .ack

/-- The TX record of the request for parameter index `p` (R81, R83, 42_request_encoder.md R190). -/
def txRecord (c : Config) (p : Byte) : Sw :=
  mkSw 0x80 0 0 0 8 0 (c.reqId.setWidth 32)
    (Payload.bits ⟨c.reqByte0, c.reqByte1, c.reqByte2, p, 0, 0, 0, 0⟩)

/-- The decoder, total on 128-bit words: an admitted input word spells its first matching row (R85); a word that is a TX
record spells row 23, so that an observer can read TXLOG (R90, log 6); any other word is refused by the check it fails. -/
def decode (c : Config) (w : Sw) : Except WfCheck Instr :=
  if w = txRecord c (payloadOf (swData w)).d3 then .ok (.txReq (payloadOf (swData w)).d3)
  else
    match failedCheck w with
    | some r => .error r
    | none => .ok (decodeInput c w)

/-! ## The encoder (R83, R90) -/

/-- The event class code EC (R83). -/
def EventClass.code : EventClass → Byte
  | .rx => 0x01
  | .tick => 0x02
  | .loop => 0x03
  | .treset => 0x04
  | .ack => 0x05
  | .tx => 0x80

/-- An RX word (R83). -/
def encodeRx (q ide : BitVec 4) (rtr : Bool) (dlc : Fin 9) (id : Word) (d : Payload) : Sw :=
  mkSw 0x01 q ide (codeOfBit rtr) (BitVec.ofNat 4 dlc.val) 0 id d.bits

/-- A response word: a standard frame from RESP_ID on the primary queue with tag `t` (R82, R83). -/
def encodeResponse (c : Config) (t : Byte) (a : RespArgs) : Sw :=
  encodeRx 0 0 a.rtr a.dlc (c.respId.setWidth 32) ⟨a.d0, a.d1, a.d2, t, a.d4, a.d5, a.d6, a.d7⟩

/-- The word of an instruction (R83, R90). -/
def encode (c : Config) : Instr → Sw
  | .rxCell0 a => encodeResponse c 0x00 a
  | .rxCell1 a => encodeResponse c 0x01 a
  | .rxCell2 a => encodeResponse c 0x02 a
  | .rxCell3 a => encodeResponse c 0x03 a
  | .rxCell4 a => encodeResponse c 0x04 a
  | .rxCell5 a => encodeResponse c 0x05 a
  | .rxCell6 a => encodeResponse c 0x06 a
  | .rxCell7 a => encodeResponse c 0x07 a
  | .rxCell8 a => encodeResponse c 0x08 a
  | .rxHv a => encodeResponse c 0x09 a
  | .rxPdate a => encodeResponse c c.tagPdate a
  | .rxSoc a => encodeResponse c c.tagSoc a
  | .rxTagOther t a => encodeResponse c t a
  | .rxIdMismatch id a => encodeRx 0 0 a.rtr a.dlc (id.setWidth 32) a.data
  | .rxExtQ0 id a => encodeRx 0 1 a.rtr a.dlc (id.setWidth 32) a.data
  | .rxExtQ1 id a => encodeRx 1 1 a.rtr a.dlc (id.setWidth 32) a.data
  | .rxStdQ1 id a => encodeRx 1 0 a.rtr a.dlc (id.setWidth 32) a.data
  | .tickMs => mkSw 0x02 Gran.ms.code 0 0 0 0 0 0
  | .tickDs => mkSw 0x02 Gran.ds.code 0 0 0 0 0 0
  | .loop => mkSw 0x03 0 0 0 0 0 0 0
  | .treset slot g => mkSw 0x04 g.code (BitVec.ofNat 4 slot.val) 0 0 0 0 0
  | .ack => mkSw 0x05 0 0 0 0 0 0 0
  | .txReq p => txRecord c p

/-! ## The opcode table as rows of mask and match (R85, R90, spec/opcode_table.json) -/

/-- One row of the opcode table: a word `w` matches it when `w & mask == pattern` (R85). -/
structure OpRow where
  mnemonic : String
  pattern : Sw
  mask : Sw
deriving DecidableEq, Repr

/-- A response row: EC 0x01, Q 0, IDE 0, ID RESP_ID, `D[3]` the tag (R90). -/
def respRow (c : Config) (name : String) (t : Byte) : OpRow where
  mnemonic := name
  pattern := mkSw 0x01 0 0 0 0 0 (c.respId.setWidth 32) (Payload.bits ⟨0, 0, 0, t, 0, 0, 0, 0⟩)
  mask := 0xFFFF0000FFFFFFFF000000FF00000000

/-- Rows 1 to 12 (R90), with the identifier and the two special tags of the configuration (log 17). -/
def responseRows (c : Config) : List OpRow :=
  [respRow c "RX_CELL0" 0x00, respRow c "RX_CELL1" 0x01, respRow c "RX_CELL2" 0x02, respRow c "RX_CELL3" 0x03,
   respRow c "RX_CELL4" 0x04, respRow c "RX_CELL5" 0x05, respRow c "RX_CELL6" 0x06, respRow c "RX_CELL7" 0x07,
   respRow c "RX_CELL8" 0x08, respRow c "RX_HV" 0x09, respRow c "RX_PDATE" c.tagPdate, respRow c "RX_SOC" c.tagSoc]

/-- Rows 13 to 23 (R90). -/
def otherRows (c : Config) : List OpRow :=
  [⟨"RX_TAG_OTHER", mkSw 0x01 0 0 0 0 0 (c.respId.setWidth 32) 0, 0xFFFF0000FFFFFFFF0000000000000000⟩,
   ⟨"RX_ID_MISMATCH", mkSw 0x01 0 0 0 0 0 0 0, 0xFFFF0000000000000000000000000000⟩,
   ⟨"RX_EXT_Q0", mkSw 0x01 0 1 0 0 0 0 0, 0xFFFF0000000000000000000000000000⟩,
   ⟨"RX_EXT_Q1", mkSw 0x01 1 1 0 0 0 0 0, 0xFFFF0000000000000000000000000000⟩,
   ⟨"RX_STD_Q1", mkSw 0x01 1 0 0 0 0 0 0, 0xFFFF0000000000000000000000000000⟩,
   ⟨"TICK_MS", mkSw 0x02 0 0 0 0 0 0 0, 0xFFF00000000000000000000000000000⟩,
   ⟨"TICK_DS", mkSw 0x02 1 0 0 0 0 0 0, 0xFFF00000000000000000000000000000⟩,
   ⟨"LOOP", mkSw 0x03 0 0 0 0 0 0 0, 0xFF000000000000000000000000000000⟩,
   ⟨"TRESET", mkSw 0x04 0 0 0 0 0 0 0, 0xFF000000000000000000000000000000⟩,
   ⟨"ACK", mkSw 0x05 0 0 0 0 0 0 0, 0xFF000000000000000000000000000000⟩,
   ⟨"TX_REQ", txRecord c 0, 0xFFFFFFFFFFFFFFFFFFFFFF00FFFFFFFF⟩]

/-- The opcode table in priority order (R90). -/
def opcodeRows (c : Config) : List OpRow := responseRows c ++ otherRows c

/-- The mnemonic of the first row a word matches (R85). -/
def firstRow (c : Config) (w : Sw) : Option String :=
  ((opcodeRows c).find? (fun r => w &&& r.mask == r.pattern)).map (·.mnemonic)

/-! ## The table's words -/

/-- The 128-bit word whose low `nbits` bits are those of `w` and whose other bits are 0. -/
def tableWord (nbits w : Nat) : Sw := BitVec.ofNat 128 (w % 2 ^ nbits)

/-- The instruction the decoder reads from a table word, in the reference configuration. -/
def decodeTableWord (nbits w : Nat) : Option Instr :=
  match decode Config.reference (tableWord nbits w) with
  | .ok i => some i
  | .error _ => none

end Sys2Proof
end

