-- ==== Sys2Proof/Machine/State.lean ====
section
/-! DEFINITION. The state of the block (10_state.md R20 to R40), the reasons a step stops, and the state after power-on
reset (70_reset_and_hazards.md R280, R281). -/

namespace Sys2Proof.Machine

/-- The states of the polling state machine (10_state.md R29). -/
inductive Psm where
  | idle
  | armed
  | requesting
  | cooldown
deriving DecidableEq, Repr

/-- One timer slot: CNT[s], a counter of CNT_W bits (log 11), EXP[s], RUN[s], GRAN[s], PERIOD[s] (10_state.md R33 to
R37). -/
structure TimerSlot where
  cnt : Count
  expired : Bool
  run : Bool
  gran : Gran
  period : HalfWord
deriving DecidableEq, Repr

/-- The outcome an RX event returns (60_exceptions.md R241). -/
inductive RxOutcome where
  | update
  | ignoredTag
  | discardId
  | discardType
  | placeholder
deriving DecidableEq, Repr

/-- The model-only FAULT mark (10_state.md R40). -/
inductive FaultMark where
  | none
  | refusedStimulus
  | cursorOutOfRange
deriving DecidableEq, Repr

/-- The reasons a step stops: a faulted state takes no further step (10_state.md R40). -/
inductive Fault where
  /-- Raised by `step` in a state whose FAULT mark is REFUSED_STIMULUS (30_encoding.md R84). Safe: the word spells no
  event of the hardware. -/
  | refusedStimulus
  /-- Raised by `step` in a state whose FAULT mark is CURSOR_OUT_OF_RANGE (43_polling_fsm.md R220). Safe: no run from
  reset reaches it. -/
  | cursorOutOfRange
deriving DecidableEq, Repr

/-- What the model has no meaning for. -/
inductive Refusal where
  /-- Raised by an arm of `exec` whose instruction has no meaning yet. Safe. No arm raises it. -/
  | notModelled (mnemonic : String)
  /-- Raised by `step` in a state whose configuration breaks 00_scope.md R9, as R9 says a model does, or has an
  NFIELD or NCELLS other than the rules' (log 11). Safe: the rules describe no such block. -/
  | illegalConfiguration
  /-- Raised by a read of a field index that 20_memory.md R61 does not list. Safe: R61 says the model refuses it. -/
  | noSuchField
deriving DecidableEq, Repr

/-- The state of the block (10_state.md R20). The first three fields are the model's own. -/
structure State where
  /-- The parameters of 00_scope.md R8; no event writes them (log 1). -/
  cfg : Config
  /-- The stimulus words still to come, the next one first (log 2). -/
  stim : List Sw
  /-- The outcomes of the RX events so far, oldest first: the model's event history (60_exceptions.md R241, log 8). -/
  rxLog : List RxOutcome
  /-- CELL[0..8] (R21). -/
  cell : Vector HalfWord nCells
  /-- HV (R22). -/
  hv : HalfWord
  /-- SOC (R23). -/
  soc : HalfWord
  /-- PDATE (R24). -/
  pdate : Word
  /-- LAST_IDX (R25). -/
  lastIdx : Byte
  /-- CURSOR (R27). -/
  cursor : BitVec 4
  /-- PDF (R28). -/
  pdf : Bool
  /-- PSM (R29). -/
  psm : Psm
  /-- REDRAW (R30). -/
  redraw : Bool
  /-- T_MS (R31). -/
  tMs : Bool
  /-- T_DS (R31). -/
  tDs : Bool
  /-- L_MS (R32). -/
  lMs : Bool
  /-- L_DS (R32). -/
  lDs : Bool
  /-- CNT, EXP, RUN, GRAN, PERIOD of slots 0..9 (R33 to R37). -/
  slots : Vector TimerSlot nSlots
  /-- DISCARD_CTR (R38); absent, so never written nor readable, unless HAS_DISCARD_CTR (log 10). -/
  discardCtr : Word
  /-- TXLOG, oldest first (R39). -/
  txLog : List Frame
  /-- FAULT (R40). -/
  fault : FaultMark
deriving DecidableEq, Repr

/-- A timer slot at reset: everything 0, granularity MS, the given period (70_reset_and_hazards.md R281). -/
def TimerSlot.atReset (period : HalfWord) : TimerSlot where
  cnt := 0
  expired := false
  run := false
  gran := .ms
  period := period

/-- The state after power-on reset of a block with configuration `c` (70_reset_and_hazards.md R280, R281). -/
def State.resetWith (c : Config) : State where
  cfg := c
  stim := []
  rxLog := []
  cell := Vector.replicate nCells 0
  hv := 0
  soc := 0
  pdate := 0
  lastIdx := 0
  cursor := 0
  pdf := false
  psm := .idle
  redraw := false
  tMs := false
  tDs := false
  lMs := false
  lDs := false
  slots := (Vector.replicate nSlots (TimerSlot.atReset 0)).set c.pollSlot (TimerSlot.atReset c.pPoll)
  discardCtr := 0
  txLog := []
  fault := .none

/-- The machine right after reset, in the reference configuration. -/
def State.reset : State := State.resetWith Config.reference

end Sys2Proof.Machine
end

