-- ==== Sys2Proof/Machine/Operands.lean ====
section
/-! DEFINITION. Operand forms: the values an RX row assembles from the payload (30_encoding.md R86, R87), the
destination a tag selects, and the codes of the enumerated registers and outcomes. -/

namespace Sys2Proof.Machine

/-- BE16(hi, lo) = hi*256 + lo = {hi, lo} (00_scope.md R12, 20_memory.md R64). -/
def be16 (hi lo : Byte) : HalfWord := hi ++ lo

/-- The production-date word of bytes `D[4..7]` (20_memory.md R65, 41_receive_demux.md R163). -/
def pdateWord (m : PdateMode) (d4 d5 d6 d7 : Byte) : Word :=
  match m with
  | .bitOr => (d4 ||| d5 ||| d6 ||| d7).setWidth 32
  | .be32 => d4 ++ d5 ++ d6 ++ d7

/-- The destinations of 30_encoding.md R86. -/
inductive Dest where
  | cell (k : Fin nCells)
  | hv
  | pdate
  | soc
  | nothing
deriving DecidableEq, Repr

/-- The destination tag `t` selects (30_encoding.md R86), tested in the order of 41_receive_demux.md R152. -/
def tagDest (c : Config) (t : Byte) : Dest :=
  if t = c.tagSoc then .soc
  else if h : t.toNat < nCells then .cell ⟨t.toNat, h⟩
  else if t = 0x09 then .hv
  else if t = c.tagPdate then .pdate
  else .nothing

/-- The code of an outcome (60_exceptions.md R241). -/
def RxOutcome.code : RxOutcome → Nat
  | .update => 0
  | .ignoredTag => 1
  | .discardId => 2
  | .discardType => 3
  | .placeholder => 4

/-- The code of a PSM state (10_state.md R29). -/
def Psm.code : Psm → BitVec 2
  | .idle => 0
  | .armed => 1
  | .requesting => 2
  | .cooldown => 3

end Sys2Proof.Machine
end

