-- ==== Sys2Proof/Machine/Flags.lean ====
section
/-! DEFINITION. The flags of the timer service: the toggle flags and their sampled levels, the expired flag, the gate the
PSM reads (40_timer_service.md R120 to R128). -/

namespace Sys2Proof.Machine

/-- T_g, the toggle flag of a granularity (10_state.md R31). -/
def toggleFlag (g : Gran) (s : State) : Bool :=
  match g with
  | .ms => s.tMs
  | .ds => s.tDs

/-- L_g, the level last sampled (10_state.md R32). -/
def sampledLevel (g : Gran) (s : State) : Bool :=
  match g with
  | .ms => s.lMs
  | .ds => s.lDs

/-- An edge is pending on T_g: it differs from the sampled level (40_timer_service.md R123). -/
def edgePending (g : Gran) (s : State) : Bool := toggleFlag g s != sampledLevel g s

/-- A slot counts ticks of granularity `g`: RUN = 1 and GRAN = g (40_timer_service.md R124, R126). -/
def TimerSlot.counts (g : Gran) (t : TimerSlot) : Bool := t.run && t.gran == g

/-- The gate expired(s): CNT[s] >= PERIOD[s], unsigned (40_timer_service.md R128). -/
def TimerSlot.reached (t : TimerSlot) : Bool := decide (t.period.toNat ≤ t.cnt.toNat)

/-- min(CNT + 1, CEIL), computed without wrap (40_timer_service.md R124). -/
def countUp (ceil cnt : Count) : Count := BitVec.ofNat 32 (min (cnt.toNat + 1) ceil.toNat)

/-- tick_slot(s, g) on one slot: the counter and the expired flag (40_timer_service.md R124, R125, R126). -/
def TimerSlot.tick (ceil : Count) (g : Gran) (t : TimerSlot) : TimerSlot :=
  if t.counts g then
    { t with
      cnt := countUp ceil t.cnt
      expired := t.expired || ({ t with cnt := countUp ceil t.cnt } : TimerSlot).reached }
  else t

/-- TRESET on one slot (40_timer_service.md R127). -/
def TimerSlot.rearm (g : Gran) (t : TimerSlot) : TimerSlot :=
  { t with cnt := 0, expired := false, gran := g, run := true }

end Sys2Proof.Machine
end

