-- ==== Sys2Proof/Machine/Ops.lean ====
section
/-! DEFINITION. The named operations every meaning is built from: one operation per register write, the slot array, the
return of an RX event, the FAULT mark (the model's counterpart of an exception: the block raises none, 60_exceptions.md
R240, R248), and the fetch of the next stimulus word. -/

namespace Sys2Proof.Machine

/-! ## Register writes -/

/-- `CELL[k] <- v`. -/
def State.writeCell (k : Fin nCells) (v : HalfWord) (s : State) : State := { s with cell := s.cell.set k v }
/-- `HV <- v`. -/
def State.writeHv (v : HalfWord) (s : State) : State := { s with hv := v }
/-- `SOC <- v`. -/
def State.writeSoc (v : HalfWord) (s : State) : State := { s with soc := v }
/-- `PDATE <- v`. -/
def State.writePdate (v : Word) (s : State) : State := { s with pdate := v }
/-- `LAST_IDX <- t`. -/
def State.writeLastIdx (t : Byte) (s : State) : State := { s with lastIdx := t }
/-- `DISCARD_CTR <- v`. -/
def State.writeDiscardCtr (v : Word) (s : State) : State := { s with discardCtr := v }
/-- `CURSOR <- v`. -/
def State.writeCursor (v : BitVec 4) (s : State) : State := { s with cursor := v }
/-- `PDF <- b`. -/
def State.writePdf (b : Bool) (s : State) : State := { s with pdf := b }
/-- `PSM <- p`. -/
def State.writePsm (p : Psm) (s : State) : State := { s with psm := p }
/-- `REDRAW <- b`. -/
def State.writeRedraw (b : Bool) (s : State) : State := { s with redraw := b }
/-- `T_MS <- b`. -/
def State.writeTMs (b : Bool) (s : State) : State := { s with tMs := b }
/-- `T_DS <- b`. -/
def State.writeTDs (b : Bool) (s : State) : State := { s with tDs := b }
/-- `L_MS <- b`. -/
def State.writeLMs (b : Bool) (s : State) : State := { s with lMs := b }
/-- `L_DS <- b`. -/
def State.writeLDs (b : Bool) (s : State) : State := { s with lDs := b }
/-- Write the whole slot array. -/
def State.writeSlots (v : Vector TimerSlot nSlots) (s : State) : State := { s with slots := v }
/-- `FAULT <- m`: the pseudocode's `raise Fault` (00_scope.md R11, 10_state.md R40). -/
def State.markFault (m : FaultMark) (s : State) : State := { s with fault := m }
/-- `emit TX(f)`: append to TXLOG, nothing else (42_request_encoder.md R192). -/
def State.emitTx (f : Frame) (s : State) : State := { s with txLog := s.txLog ++ [f] }
/-- Record the outcome an RX event returns (60_exceptions.md R241, log 8). -/
def State.logOutcome (o : RxOutcome) (s : State) : State := { s with rxLog := s.rxLog ++ [o] }
/-- Replace the stimulus words still to come (log 2). -/
def State.withStim (l : List Sw) (s : State) : State := { s with stim := l }

/-! ## The slot array -/

/-- Apply `f` to the slots 0..n-1 and leave the others (the loop over s = 0..NSLOTS-1 of 40_timer_service.md R123). -/
def mapSlots (n : Nat) (f : TimerSlot → TimerSlot) (v : Vector TimerSlot nSlots) : Vector TimerSlot nSlots :=
  ⟨⟨(v.toArray.toList.take n).map f ++ v.toArray.toList.drop n⟩, by
    rw [List.size_toArray, List.length_append, List.length_map, ← List.length_append, List.take_append_drop]
    exact v.size_toArray⟩

/-- TRESET(s, g), also the PSM's re-arm and boot step (4) (40_timer_service.md R127, 43_polling_fsm.md R216). -/
def resetSlot (slot : Fin nSlots) (g : Gran) (s : State) : State :=
  s.writeSlots (s.slots.set slot (s.slots[slot].rearm g))

/-- tick_slot(s, g) for every slot below NSLOTS (40_timer_service.md R123, R124). -/
def tickSlots (g : Gran) (s : State) : State :=
  s.writeSlots (mapSlots s.cfg.numSlots.val (TimerSlot.tick s.cfg.ceil g) s.slots)

/-- `L_g <- b`. -/
def writeSampledLevel (g : Gran) (b : Bool) (s : State) : State :=
  match g with
  | .ms => s.writeLMs b
  | .ds => s.writeLDs b

/-- `T_g <- NOT T_g` (40_timer_service.md R120, R121). -/
def invertToggle (g : Gran) (s : State) : State :=
  match g with
  | .ms => s.writeTMs (!s.tMs)
  | .ds => s.writeTDs (!s.tDs)

/-! ## RX returns -/

/-- The end of an RX event: it returns one outcome (60_exceptions.md R241). -/
def rxReturn (r : RxOutcome × State) : State := r.2.logOutcome r.1

/-- discard(reason): count if DISCARD_CTR exists, modulo 2^32 (41_receive_demux.md R151, R175). -/
def discard (reason : RxOutcome) (s : State) : RxOutcome × State :=
  (reason, if s.cfg.hasDiscardCtr then s.writeDiscardCtr (s.discardCtr + 1) else s)

/-- UPDATE of CELL[k]; the tag of a cell is its index (41_receive_demux.md R153 to R161). -/
def updateCell (k : Fin nCells) (v : HalfWord) (s : State) : RxOutcome × State :=
  (.update, (s.writeCell k v).writeLastIdx (BitVec.ofNat 8 k.val))

/-- UPDATE of HV (41_receive_demux.md R162). -/
def updateHv (v : HalfWord) (s : State) : RxOutcome × State :=
  (.update, (s.writeHv v).writeLastIdx 0x09)

/-- UPDATE of PDATE (41_receive_demux.md R163). -/
def updatePdate (v : Word) (s : State) : RxOutcome × State :=
  (.update, (s.writePdate v).writeLastIdx s.cfg.tagPdate)

/-- UPDATE of SOC (41_receive_demux.md R164). -/
def updateSoc (v : HalfWord) (s : State) : RxOutcome × State :=
  (.update, (s.writeSoc v).writeLastIdx s.cfg.tagSoc)

/-! ## Stimulus words -/

/-- The next stimulus word and the state with it taken; `none` when no event comes (log 2). -/
def fetch (s : State) : Option (Sw × State) :=
  match s.stim with
  | [] => none
  | w :: rest => some (w, s.withStim rest)

/-- A refused word sets FAULT <- REFUSED_STIMULUS and takes no other action (30_encoding.md R84). -/
def refuseStimulus (s : State) : State := s.markFault .refusedStimulus

/-- The reason a state takes no further step (10_state.md R40). -/
def haltReason (s : State) : Option Fault :=
  match s.fault with
  | .none => none
  | .refusedStimulus => some .refusedStimulus
  | .cursorOutOfRange => some .cursorOutOfRange

/-- Put a word before the stimulus words still to come. -/
def pushWord (w : Sw) (s : State) : State := s.withStim (w :: s.stim)

end Sys2Proof.Machine
end

