-- ==== Sys2Proof/Machine/Timer.lean ====
section
/-! DEFINITION. The timer service (40_timer_service.md): TICK, TRESET and the sampling half of LOOP. -/

namespace Sys2Proof.Machine

/-- sample(g): on an edge of T_g, remember the level and count one tick into every slot of that granularity (R123). -/
def sample (g : Gran) (s : State) : State :=
  if edgePending g s then tickSlots g (writeSampledLevel g (toggleFlag g s) s) else s

/-- Both samples of one LOOP pass, MS then DS (R122). -/
def sampleBoth (s : State) : State := sample .ds (sample .ms s)

/-- TICK_MS (R120). -/
def execTickMs (s : State) : Host.Outcome State Fault Refusal := .next (invertToggle .ms s)

/-- TICK_DS (R121). -/
def execTickDs (s : State) : Host.Outcome State Fault Refusal := .next (invertToggle .ds s)

/-- TRESET slot, g (R127). -/
def execTreset (slot : Fin nSlots) (g : Gran) (s : State) : Host.Outcome State Fault Refusal :=
  .next (resetSlot slot g s)

end Sys2Proof.Machine
end

