-- ==== Sys2Proof/Machine/Transmit.lean ====
section
/-! DEFINITION. The request encoder and the TX record (42_request_encoder.md). -/

namespace Sys2Proof.Machine

/-- encode_request(p) (42_request_encoder.md R190, R191). -/
def encodeRequest (c : Config) (p : Byte) : Frame where
  id := .std c.reqId
  rtr := false
  dlc := 8
  data := ⟨c.reqByte0, c.reqByte1, c.reqByte2, p, 0, 0, 0, 0⟩

/-- The identifier of a frame zero-extended to 32 bits, and its IDE bit (30_encoding.md R83). -/
def canIdBits (i : CanId) : BitVec 4 × Word :=
  match i with
  | .std id => (0, id.setWidth 32)
  | .ext id => (1, id.setWidth 32)

/-- The TX record of an emitted frame: EC 0x80, its header and payload (30_encoding.md R83). -/
def frameRecord (f : Frame) : Sw :=
  mkSw 0x80 0 (canIdBits f.id).1 (codeOfBit f.rtr) (BitVec.ofNat 4 f.dlc.val) 0 (canIdBits f.id).2 f.data.bits

/-- TX_REQ as an input: a TX record is never an input, so it fails WF_EC, sets FAULT <- REFUSED_STIMULUS and does nothing
else (30_encoding.md R84, R90, log 6). Emission itself is `State.emitTx` of `encodeRequest`, in the PSM's request. -/
def execTxReq (_p : Byte) (s : State) : Host.Outcome State Fault Refusal := .next (refuseStimulus s)

end Sys2Proof.Machine
end

