-- ==== Sys2Proof/Machine/Poll.lean ====
section
/-! DEFINITION. The polling state machine (43_polling_fsm.md), LOOP and ACK. -/

namespace Sys2Proof.Machine

/-- select(c): the parameter index for cursor value `cur` and the new PDF; `none` where it raises
CURSOR_OUT_OF_RANGE (43_polling_fsm.md R214). -/
def select (c : Config) (cur : BitVec 4) (pdf : Bool) : Option (Byte × Bool) :=
  if cur.toNat ≤ 9 then some (cur.setWidth 8, pdf)
  else if cur = 10 then some (if pdf then c.tagSoc else c.tagPdate, true)
  else none

/-- advance(c): c + 1, or 0 above 10 (43_polling_fsm.md R215). -/
def advance (cur : BitVec 4) : BitVec 4 := if 10 < cur.toNat + 1 then 0 else cur + 1

/-- The REQUESTING arm: request() and then COOLDOWN; a cursor above 10 sets FAULT and changes nothing else
(43_polling_fsm.md R213 to R217, R220). -/
def request (s : State) : State :=
  match select s.cfg s.cursor s.pdf with
  | none => s.markFault .cursorOutOfRange
  | some (p, pdf) =>
    let sent := (s.writePdf pdf).emitTx (encodeRequest s.cfg p)
    let rearmed := resetSlot s.cfg.pollSlot s.cfg.gPoll (sent.writeCursor (advance s.cursor))
    (rearmed.writeRedraw true).writePsm .cooldown

/-- psm_step(): exactly one transition (43_polling_fsm.md R210, R211, R212, R218). -/
def psmStep (s : State) : State :=
  match s.psm with
  | .idle => s.writePsm .armed
  | .armed => if s.slots[s.cfg.pollSlot].reached then s.writePsm .requesting else s
  | .requesting => request s
  | .cooldown => s.writePsm .idle

/-- LOOP: sample MS, sample DS, one PSM transition (40_timer_service.md R122). -/
def execLoop (s : State) : Host.Outcome State Fault Refusal := .next (psmStep (sampleBoth s))

/-- ACK (43_polling_fsm.md R219). -/
def execAck (s : State) : Host.Outcome State Fault Refusal := .next (s.writeRedraw false)

end Sys2Proof.Machine
end

