-- ==== Sys2Proof/Machine/Receive.lean ====
section
/-! DEFINITION. The receive-interrupt demultiplexer (41_receive_demux.md): the classification R151 and the dispatch R152
as one function of a received frame, and the meaning of each of the opcode rows 1 to 17. -/

namespace Sys2Proof.Machine

/-- decode(D), the dispatch on the tag `D[3]` (41_receive_demux.md R152). -/
def decodePayload (d : Payload) (s : State) : RxOutcome × State :=
  match tagDest s.cfg d.d3 with
  | .soc => updateSoc (be16 d.d4 d.d5) s
  | .cell k => updateCell k (be16 d.d4 d.d5) s
  | .hv => updateHv (be16 d.d4 d.d5) s
  | .pdate => updatePdate (pdateWord s.cfg.pdateMode d.d4 d.d5 d.d6 d.d7) s
  | .nothing => (.ignoredTag, s)

/-- The identifier test and the dispatch, for a standard frame (41_receive_demux.md R151, R169). -/
def acceptStd (id : StdId) (d : Payload) (s : State) : RxOutcome × State :=
  if id = s.cfg.respId then decodePayload d s else discard .discardId s

/-- The classification of an RX event, complete (41_receive_demux.md R151). RTR and DLC are not read (R171, R172). -/
def demux (f : RxFrame) (s : State) : RxOutcome × State :=
  match f.queue, f.frame.id with
  | .primary, .ext _ => discard .discardType s
  | .primary, .std id => acceptStd id f.frame.data s
  | .secondary, .ext _ => (.placeholder, s)
  | .secondary, .std id =>
    match s.cfg.q1StdPolicy with
    | .discard => discard .discardType s
    | .decode => acceptStd id f.frame.data s

/-- The meaning every cell row shares: `CELL[k] <- BE16(D[4], D[5])`, LAST_IDX the tag k, outcome UPDATE. -/
def receiveCell (k : Fin nCells) (a : RespArgs) (s : State) : State := rxReturn (updateCell k (be16 a.d4 a.d5) s)

/-- RX_CELL0 (41_receive_demux.md R153). -/
def execRxCell0 (a : RespArgs) (s : State) : Host.Outcome State Fault Refusal := .next (receiveCell 0 a s)
/-- RX_CELL1 (41_receive_demux.md R154). -/
def execRxCell1 (a : RespArgs) (s : State) : Host.Outcome State Fault Refusal := .next (receiveCell 1 a s)
/-- RX_CELL2 (41_receive_demux.md R155). -/
def execRxCell2 (a : RespArgs) (s : State) : Host.Outcome State Fault Refusal := .next (receiveCell 2 a s)
/-- RX_CELL3 (41_receive_demux.md R156). -/
def execRxCell3 (a : RespArgs) (s : State) : Host.Outcome State Fault Refusal := .next (receiveCell 3 a s)
/-- RX_CELL4 (41_receive_demux.md R157). -/
def execRxCell4 (a : RespArgs) (s : State) : Host.Outcome State Fault Refusal := .next (receiveCell 4 a s)
/-- RX_CELL5 (41_receive_demux.md R158). -/
def execRxCell5 (a : RespArgs) (s : State) : Host.Outcome State Fault Refusal := .next (receiveCell 5 a s)
/-- RX_CELL6 (41_receive_demux.md R159). -/
def execRxCell6 (a : RespArgs) (s : State) : Host.Outcome State Fault Refusal := .next (receiveCell 6 a s)
/-- RX_CELL7 (41_receive_demux.md R160). -/
def execRxCell7 (a : RespArgs) (s : State) : Host.Outcome State Fault Refusal := .next (receiveCell 7 a s)
/-- RX_CELL8 (41_receive_demux.md R161). -/
def execRxCell8 (a : RespArgs) (s : State) : Host.Outcome State Fault Refusal := .next (receiveCell 8 a s)

/-- RX_HV (41_receive_demux.md R162). -/
def execRxHv (a : RespArgs) (s : State) : Host.Outcome State Fault Refusal :=
  .next (rxReturn (updateHv (be16 a.d4 a.d5) s))

/-- RX_PDATE (41_receive_demux.md R163). -/
def execRxPdate (a : RespArgs) (s : State) : Host.Outcome State Fault Refusal :=
  .next (rxReturn (updatePdate (pdateWord s.cfg.pdateMode a.d4 a.d5 a.d6 a.d7) s))

/-- RX_SOC (41_receive_demux.md R164). -/
def execRxSoc (a : RespArgs) (s : State) : Host.Outcome State Fault Refusal :=
  .next (rxReturn (updateSoc (be16 a.d4 a.d5) s))

/-- RX_TAG_OTHER: an unrecognised tag is a no-op (41_receive_demux.md R165). -/
def execRxTagOther (_tag : Byte) (_a : RespArgs) (s : State) : Host.Outcome State Fault Refusal :=
  .next (rxReturn (.ignoredTag, s))

/-- RX_ID_MISMATCH (41_receive_demux.md R166). -/
def execRxIdMismatch (_id : StdId) (_a : FrameArgs) (s : State) : Host.Outcome State Fault Refusal :=
  .next (rxReturn (discard .discardId s))

/-- RX_EXT_Q0 (41_receive_demux.md R167). -/
def execRxExtQ0 (_id : ExtId) (_a : FrameArgs) (s : State) : Host.Outcome State Fault Refusal :=
  .next (rxReturn (discard .discardType s))

/-- RX_EXT_Q1, the no-op placeholder (41_receive_demux.md R168). -/
def execRxExtQ1 (_id : ExtId) (_a : FrameArgs) (s : State) : Host.Outcome State Fault Refusal :=
  .next (rxReturn (.placeholder, s))

/-- RX_STD_Q1: by Q1_STD_POLICY (41_receive_demux.md R169). -/
def execRxStdQ1 (id : StdId) (a : FrameArgs) (s : State) : Host.Outcome State Fault Refusal :=
  .next (rxReturn
    (match s.cfg.q1StdPolicy with
      | .discard => discard .discardType s
      | .decode => acceptStd id a.data s))

end Sys2Proof.Machine
end

