-- ==== Sys2Proof/Machine/Dispatch.lean ====
section
/-! DEFINITION. One arm per opcode row (30_encoding.md R90). -/

namespace Sys2Proof.Machine

def exec (i : Instr) (s : State) : Host.Outcome State Fault Refusal :=
  match i with
  | .rxCell0 a => Sys2Proof.Machine.execRxCell0 a s
  | .rxCell1 a => Sys2Proof.Machine.execRxCell1 a s
  | .rxCell2 a => Sys2Proof.Machine.execRxCell2 a s
  | .rxCell3 a => Sys2Proof.Machine.execRxCell3 a s
  | .rxCell4 a => Sys2Proof.Machine.execRxCell4 a s
  | .rxCell5 a => Sys2Proof.Machine.execRxCell5 a s
  | .rxCell6 a => Sys2Proof.Machine.execRxCell6 a s
  | .rxCell7 a => Sys2Proof.Machine.execRxCell7 a s
  | .rxCell8 a => Sys2Proof.Machine.execRxCell8 a s
  | .rxHv a => Sys2Proof.Machine.execRxHv a s
  | .rxPdate a => Sys2Proof.Machine.execRxPdate a s
  | .rxSoc a => Sys2Proof.Machine.execRxSoc a s
  | .rxTagOther t a => Sys2Proof.Machine.execRxTagOther t a s
  | .rxIdMismatch id a => Sys2Proof.Machine.execRxIdMismatch id a s
  | .rxExtQ0 id a => Sys2Proof.Machine.execRxExtQ0 id a s
  | .rxExtQ1 id a => Sys2Proof.Machine.execRxExtQ1 id a s
  | .rxStdQ1 id a => Sys2Proof.Machine.execRxStdQ1 id a s
  | .tickMs => Sys2Proof.Machine.execTickMs s
  | .tickDs => Sys2Proof.Machine.execTickDs s
  | .loop => Sys2Proof.Machine.execLoop s
  | .treset slot g => Sys2Proof.Machine.execTreset slot g s
  | .ack => Sys2Proof.Machine.execAck s
  | .txReq p => Sys2Proof.Machine.execTxReq p s

end Sys2Proof.Machine
end

