-- ==== Sys2Proof/Machine/Step.lean ====
section
/-! DEFINITION. One step of the machine: one event (00_scope.md R3, 20_memory.md R70). -/

namespace Sys2Proof.Machine

/-- Run one stimulus word: the meaning of the row it decodes to (30_encoding.md R85), or the refusal of R84. -/
def runWord (w : Sw) (s : State) : Host.Outcome State Fault Refusal :=
  match decode s.cfg w with
  | .ok i => exec i s
  | .error _ => .next (refuseStimulus s)

/-- One step. A faulted state takes none (10_state.md R40); a configuration outside 00_scope.md R9 is refused; otherwise
the next stimulus word is taken and run. With no word to come nothing happens (10_state.md R45, log 2). -/
def step (s : State) : Host.Outcome State Fault Refusal :=
  match haltReason s with
  | some r => .fault r
  | none =>
    if s.cfg.legal then
      match fetch s with
      | some (w, s') => runWord w s'
      | none => .next s
    else .refused .illegalConfiguration

/-- The state whose next stimulus word is the given table word (log 3). -/
def State.withFetchWord (s : State) (nbits w : Nat) : State := pushWord (tableWord nbits w) s

end Sys2Proof.Machine
end

