-- ==== Sys2Proof/Machine/Boot.lean ====
section
/-! DEFINITION. Power-on reset and the boot sequence (70_reset_and_hazards.md R280, R283). -/

namespace Sys2Proof.Machine

/-- Power-on reset from any state (70_reset_and_hazards.md R280). The configuration and the events still to come are not
registers of the block and stay. -/
def powerOnReset (s : State) : State := (State.resetWith s.cfg).withStim s.stim

/-- The launch state: reset, then boot step (4), with no event yet (70_reset_and_hazards.md R283, 95_test_vectors.md). -/
def State.launch (c : Config) : State := resetSlot c.pollSlot c.gPoll (State.resetWith c)

end Sys2Proof.Machine
end

