-- ==== Sys2Proof/Machine/Display.lean ====
section
/-! DEFINITION. The display's read port: single-register reads by field index, with no side effect (20_memory.md R61,
R69, 60_exceptions.md R259). -/

namespace Sys2Proof.Machine

/-- A value read, at the width of its register (20_memory.md R61). -/
inductive FieldValue where
  | bits16 (v : HalfWord)
  | bits32 (v : Word)
  | bits8 (v : Byte)
  | bit (v : Bool)
deriving DecidableEq, Repr

/-- The read port (20_memory.md R61): the value of one register, or a refusal of an index the table does not list. -/
def readField (s : State) (index : Byte) : Except Refusal FieldValue :=
  if h : index.toNat < nCells then .ok (.bits16 (s.cell[index.toNat]'h))
  else if index = 0x09 then .ok (.bits16 s.hv)
  else if index = 0x0A then .ok (.bits16 s.soc)
  else if index = 0x0B then .ok (.bits32 s.pdate)
  else if index = 0x0C then .ok (.bits8 s.lastIdx)
  else if index = 0x0D then
    if s.cfg.hasDiscardCtr then .ok (.bits32 s.discardCtr) else .error .noSuchField
  else if index = 0x0E then .ok (.bit s.redraw)
  else .error .noSuchField

end Sys2Proof.Machine
end

