-- ==== Sys2Proof/Machine/Assembler.lean ====
section
/-! DEFINITION. The spec's event syntax and pseudo-instructions (30_encoding.md R91, R92) as data: a line, the stimulus
word it encodes to, the listing of a word as a line, and the expansions. The text of a line is Machine/Text.lean's. -/

namespace Sys2Proof.Machine

/-- One event line (R91); `none` is an omitted operand of RX. -/
inductive EventLine where
  | rx (q ide rtr dlc : Option (BitVec 4)) (id : Word) (data : Payload)
  | tick (g : Gran)
  | loop
  | treset (slot : BitVec 4) (g : Gran)
  | ack
deriving DecidableEq, Repr

/-- The stimulus word of a line, with the defaults q=0, ide=0, rtr=0, dlc=8 (R91). -/
def assemble : EventLine → Sw
  | .rx q ide rtr dlc id data =>
    mkSw 0x01 (q.getD 0) (ide.getD 0) (rtr.getD 0) (dlc.getD 8) 0 id data.bits
  | .tick g => mkSw 0x02 g.code 0 0 0 0 0 0
  | .loop => mkSw 0x03 0 0 0 0 0 0 0
  | .treset slot g => mkSw 0x04 g.code slot 0 0 0 0 0
  | .ack => mkSw 0x05 0 0 0 0 0 0 0

/-- The listing of an admitted word, with every RX operand written out (R91). -/
def listing (w : Sw) : Option EventLine :=
  if admitted w then
    some
      (if swEc w = 0x01 then
        .rx (some (swA w)) (some (swB w)) (some (swC w)) (some (swDlc w)) (swId w) (payloadOf (swData w))
      else if swEc w = 0x02 then .tick (granOf w)
      else if swEc w = 0x03 then .loop
      else if swEc w = 0x04 then .treset (swB w) (granOf w)
      else .ack)
  else none

/-- `RESP t, hi, lo` (R92). -/
def resp (c : Config) (t hi lo : Byte) : EventLine :=
  .rx none none none none (c.respId.setWidth 32) ⟨0, 0, 0, t, hi, lo, 0, 0⟩

/-- `RESP32 t, b4, b5, b6, b7` (R92). -/
def resp32 (c : Config) (t b4 b5 b6 b7 : Byte) : EventLine :=
  .rx none none none none (c.respId.setWidth 32) ⟨0, 0, 0, t, b4, b5, b6, b7⟩

/-- `STEP g` (R92). -/
def stepLines (g : Gran) : List EventLine := [.tick g, .loop]

/-- `STEPS g, n` (R92). -/
def stepsLines (g : Gran) : Nat → List EventLine
  | 0 => []
  | n + 1 => stepLines g ++ stepsLines g n

/-- `CYCLE` (R92). -/
def cycleLines (c : Config) : List EventLine :=
  [.loop] ++ stepsLines c.gPoll c.pPoll.toNat ++ [.loop, .loop]

/-- The stimulus words of a program, one a line (R91). -/
def assembleAll (l : List EventLine) : List Sw := l.map assemble

end Sys2Proof.Machine
end

