-- ==== Sys2Proof/Machine/Text.lean ====
section
/-! DEFINITION. The text of the event syntax (30_encoding.md R91) and of the pseudo-instructions (R92): the scanner, the
parser of a program, and the printer of a listing. What R91 leaves open of the text is log 19's choice: blanks, tabs and
carriage returns separate, the operands of RX stand in R91's order, numbers are decimal or hexadecimal behind `0x`, and
hexadecimal digits have either case. -/

namespace Sys2Proof.Machine

/-- A piece of text. -/
abbrev Text := List Char

/-- The value of a digit, hexadecimal digits included. -/
def digitValue (ch : Char) : Option Nat :=
  if 48 ≤ ch.toNat ∧ ch.toNat ≤ 57 then some (ch.toNat - 48)
  else if 65 ≤ ch.toNat ∧ ch.toNat ≤ 70 then some (ch.toNat - 55)
  else if 97 ≤ ch.toNat ∧ ch.toNat ≤ 102 then some (ch.toNat - 87)
  else none

/-- The value of a digit string behind the digits already read. -/
def digitsValue (base acc : Nat) : Text → Option Nat
  | [] => some acc
  | ch :: r =>
    match digitValue ch with
    | some d => if d < base then digitsValue base (base * acc + d) r else none
    | none => none

/-- A number: hexadecimal behind `0x`, else decimal (log 19). -/
def numberOf (t : Text) : Option Nat :=
  match t with
  | [] => none
  | [ch] => digitsValue 10 0 [ch]
  | [a, b] => digitsValue 10 0 [a, b]
  | a :: b :: ch :: r => if a = '0' ∧ b = 'x' then digitsValue 16 0 (ch :: r) else digitsValue 10 0 (a :: b :: ch :: r)

/-- A number below a bound. -/
def boundedNumber (bound : Nat) (t : Text) : Option Nat :=
  match numberOf t with
  | some n => if n < bound then some n else none
  | none => none

/-- A byte of `data=`: two hexadecimal digits without prefix (R91). -/
def dataByte (t : Text) : Option Byte :=
  match t with
  | [a, b] => (digitsValue 16 0 [a, b]).map (BitVec.ofNat 8)
  | _ => none

/-- A byte operand of RESP or RESP32 (R92). -/
def byteOperand (t : Text) : Option Byte := (boundedNumber 256 t).map (BitVec.ofNat 8)

/-- `ms` or `ds` (R91). -/
def granOperand (t : Text) : Option Gran :=
  if t = "ms".toList then some .ms else if t = "ds".toList then some .ds else none

/-- What stands in a token behind a key such as `id=`. -/
def afterKey : Text → Text → Option Text
  | [], t => some t
  | _ :: _, [] => none
  | k :: ks, ch :: r => if k = ch then afterKey ks r else none

/-- The token of a scan in progress, if it has a character. -/
def flush : Text → List Text
  | [] => []
  | ch :: r => [ch :: r]

/-- The tokens of a line: `;` starts a comment (R91), blanks separate, a comma is a token. -/
def tokensFrom (cur : Text) : Text → List Text
  | [] => flush cur
  | ch :: r =>
    if ch = ';' then flush cur
    else if ch = ' ' ∨ ch = '\t' ∨ ch = '\r' then flush cur ++ tokensFrom [] r
    else if ch = ',' then flush cur ++ [','] :: tokensFrom [] r
    else tokensFrom (cur ++ [ch]) r

/-- The lines of a text. -/
def linesFrom (cur : Text) : Text → List Text
  | [] => [cur]
  | ch :: r => if ch = '\n' then cur :: linesFrom [] r else linesFrom (cur ++ [ch]) r

/-- An optional operand of RX with its key: its value if it is written, and the tokens behind it. -/
def optionalOperand (key : String) (bound : Nat) : List Text → Option (Option (BitVec 4) × List Text)
  | [] => some (none, [])
  | t :: r =>
    match afterKey key.toList t with
    | none => some (none, t :: r)
    | some v => (boundedNumber bound v).map fun n => (some (BitVec.ofNat 4 n), r)

/-- `id=<hex> data=<b0> … <b7>` (R91). -/
def idAndData : List Text → Option (Word × Payload)
  | [i, t0, t1, t2, t3, t4, t5, t6, t7] =>
    match afterKey "id=".toList i, afterKey "data=".toList t0 with
    | some ('0' :: 'x' :: n), some b0 =>
      match boundedNumber (2 ^ 32) ('0' :: 'x' :: n), dataByte b0, dataByte t1, dataByte t2, dataByte t3, dataByte t4,
        dataByte t5, dataByte t6, dataByte t7 with
      | some n, some d0, some d1, some d2, some d3, some d4, some d5, some d6, some d7 =>
        some (BitVec.ofNat 32 n, ⟨d0, d1, d2, d3, d4, d5, d6, d7⟩)
      | _, _, _, _, _, _, _, _, _ => none
    | _, _ => none
  | _ => none

/-- The operands of RX (R91). -/
def rxOperands (ts : List Text) : Option EventLine :=
  match optionalOperand "q=" 2 ts with
  | none => none
  | some (q, ts) =>
    match optionalOperand "ide=" 2 ts with
    | none => none
    | some (ide, ts) =>
      match optionalOperand "rtr=" 2 ts with
      | none => none
      | some (rtr, ts) =>
        match optionalOperand "dlc=" 9 ts with
        | none => none
        | some (dlc, ts) =>
          match idAndData ts with
          | none => none
          | some (id, data) => some (.rx q ide rtr dlc id data)

/-- The operands of TRESET (R91). The slot is the number field B of the word, so that WF_SLOT is the word's check. -/
def tresetOperands (ts : List Text) : Option EventLine :=
  match ts with
  | [j, comma, g] =>
    if comma = [','] then
      match boundedNumber 16 j, granOperand g with
      | some j, some g => some (.treset (BitVec.ofNat 4 j) g)
      | _, _ => none
    else none
  | _ => none

/-- The operands of RESP (R92). -/
def respOperands (c : Config) (ts : List Text) : Option EventLine :=
  match ts with
  | [t, comma, hi, comma', lo] =>
    if comma = [','] ∧ comma' = [','] then
      match byteOperand t, byteOperand hi, byteOperand lo with
      | some t, some hi, some lo => some (resp c t hi lo)
      | _, _, _ => none
    else none
  | _ => none

/-- The operands of RESP32 (R92). -/
def resp32Operands (c : Config) (ts : List Text) : Option EventLine :=
  match ts with
  | [t, k4, b4, k5, b5, k6, b6, k7, b7] =>
    if k4 = [','] ∧ k5 = [','] ∧ k6 = [','] ∧ k7 = [','] then
      match byteOperand t, byteOperand b4, byteOperand b5, byteOperand b6, byteOperand b7 with
      | some t, some b4, some b5, some b6, some b7 => some (resp32 c t b4 b5 b6 b7)
      | _, _, _, _, _ => none
    else none
  | _ => none

/-- The operands of STEPS (R92). -/
def stepsOperands (ts : List Text) : Option (List EventLine) :=
  match ts with
  | [g, comma, n] =>
    if comma = [','] then
      match granOperand g, numberOf n with
      | some g, some n => some (stepsLines g n)
      | _, _ => none
    else none
  | _ => none

/-- A single granularity operand. -/
def oneGran (ts : List Text) : Option Gran :=
  match ts with
  | [g] => granOperand g
  | _ => none

/-- The event lines of one line's tokens: none for a blank line, one for an event, the expansion of a
pseudo-instruction (R91, R92). -/
def parseLine (c : Config) (ts : List Text) : Option (List EventLine) :=
  match ts with
  | [] => some []
  | m :: ops =>
    if m = "RX".toList then (rxOperands ops).map fun l => [l]
    else if m = "TICK".toList then (oneGran ops).map fun g => [.tick g]
    else if m = "LOOP".toList then if ops = [] then some [.loop] else none
    else if m = "TRESET".toList then (tresetOperands ops).map fun l => [l]
    else if m = "ACK".toList then if ops = [] then some [.ack] else none
    else if m = "RESP".toList then (respOperands c ops).map fun l => [l]
    else if m = "RESP32".toList then (resp32Operands c ops).map fun l => [l]
    else if m = "STEP".toList then (oneGran ops).map stepLines
    else if m = "STEPS".toList then stepsOperands ops
    else if m = "CYCLE".toList then if ops = [] then some (cycleLines c) else none
    else none

/-- The event lines of a text's lines, in order. -/
def parseLines (c : Config) : List Text → Option (List EventLine)
  | [] => some []
  | l :: r =>
    match parseLine c (tokensFrom [] l), parseLines c r with
    | some a, some b => some (a ++ b)
    | _, _ => none

/-- The stimulus words of a program text, or `none` where a line is not of the syntax (R91, R92). -/
def assembleText (c : Config) (program : String) : Option (List Sw) :=
  (parseLines c (linesFrom [] program.toList)).map assembleAll

/-- The digit of a value below 16. -/
def digitChar (n : Nat) : Char := if n < 10 then Char.ofNat (48 + n) else Char.ofNat (55 + n)

/-- A byte as two hexadecimal digits. -/
def hexByte (b : Byte) : Text := [digitChar (b.toNat / 16), digitChar (b.toNat % 16)]

/-- A digit string without its leading zeros, but for a last digit. -/
def dropZeros : Text → Text
  | [] => []
  | [ch] => [ch]
  | ch :: ch' :: r => if ch = '0' then dropZeros (ch' :: r) else ch :: ch' :: r

/-- An identifier behind `0x`, without leading zeros. -/
def hexWord (w : Word) : Text :=
  '0' :: 'x' :: dropZeros (hexByte (w.extractLsb' 24 8) ++ hexByte (w.extractLsb' 16 8) ++ hexByte (w.extractLsb' 8 8)
    ++ hexByte (w.extractLsb' 0 8))

/-- A 4-bit operand: one digit for every value an admitted word holds (R84). -/
def digitText (b : BitVec 4) : Text :=
  if b.toNat < 10 then [digitChar b.toNat] else ['0', 'x', digitChar b.toNat]

/-- The name of a granularity. -/
def granText : Gran → Text
  | .ms => "ms".toList
  | .ds => "ds".toList

/-- The tokens of a line, every RX operand written out (R91). -/
def lineTokens : EventLine → List Text
  | .rx q ide rtr dlc id data =>
    ["RX".toList, "q=".toList ++ digitText (q.getD 0), "ide=".toList ++ digitText (ide.getD 0),
      "rtr=".toList ++ digitText (rtr.getD 0), "dlc=".toList ++ digitText (dlc.getD 8), "id=".toList ++ hexWord id,
      "data=".toList ++ hexByte data.d0, hexByte data.d1, hexByte data.d2, hexByte data.d3, hexByte data.d4,
      hexByte data.d5, hexByte data.d6, hexByte data.d7]
  | .tick g => ["TICK".toList, granText g]
  | .loop => ["LOOP".toList]
  | .treset j g => ["TRESET".toList, digitText j, [','], granText g]
  | .ack => ["ACK".toList]

/-- Tokens on one line: a blank before each but the first and a comma. -/
def joinTokens : List Text → Text
  | [] => []
  | [t] => t
  | t :: u :: r => if u = [','] then t ++ joinTokens (u :: r) else t ++ ' ' :: joinTokens (u :: r)

/-- The text of a line. -/
def printLine (l : EventLine) : String := String.ofList (joinTokens (lineTokens l))

/-- The listing of a word as text (R91). -/
def listingText (w : Sw) : Option String := (listing w).map printLine

end Sys2Proof.Machine
end

