-- ==== Sys2Proof/Safety.lean ====
section
/-! DEFINITION. What counts as a safe state and run: the invariants of 10_state.md R43, runs of the machine, the
environment assumptions the spec names (70_reset_and_hazards.md R283, R284, 60_exceptions.md R254), and small names the
statements share. -/

namespace Sys2Proof.Machine

/-- The invariants of 10_state.md R43, with the two facts about the configuration they rest on: it is legal
(00_scope.md R9), and PERIOD[POLL_SLOT] is P_POLL (10_state.md R37). -/
structure Inv (s : State) : Prop where
  /-- 00_scope.md R9. -/
  legal : s.cfg.legal = true
  /-- 0 <= CURSOR <= 10. -/
  cursor_le : s.cursor.toNat ≤ 10
  /-- 0 <= CNT[s] <= CEIL. -/
  cnt_le : ∀ j : Fin nSlots, s.slots[j].cnt.toNat ≤ s.cfg.ceil.toNat
  /-- For PERIOD[s] >= 1, EXP[s] = 1 exactly when CNT[s] >= PERIOD[s]. -/
  expired_iff : ∀ j : Fin nSlots, 1 ≤ s.slots[j].period.toNat →
    (s.slots[j].expired = true ↔ s.slots[j].period.toNat ≤ s.slots[j].cnt.toNat)
  /-- PDF = 1 exactly when TXLOG holds a frame with tag TAG_PDATE. -/
  pdf_iff : s.pdf = true ↔ ∃ f ∈ s.txLog, f.data.d3 = s.cfg.tagPdate
  /-- PDATE < 0x100 when PDATE_MODE = OR. -/
  pdate_lt : s.cfg.pdateMode = .bitOr → s.pdate.toNat < 0x100
  /-- PERIOD[POLL_SLOT] = P_POLL. -/
  poll_period : s.slots[s.cfg.pollSlot].period = s.cfg.pPoll
  /-- CURSOR_OUT_OF_RANGE is never marked (43_polling_fsm.md R220). -/
  no_cursor_fault : s.fault ≠ .cursorOutOfRange

/-- The parameter indices the PSM requests (42_request_encoder.md R195). -/
def polledIndex (c : Config) (p : Byte) : Bool := c.knownTag p

/-- Every frame of TXLOG is a request for a polled index (42_request_encoder.md R193, R195). -/
def SentOnlyRequests (s : State) : Prop :=
  ∀ f ∈ s.txLog, ∃ p, polledIndex s.cfg p = true ∧ f = encodeRequest s.cfg p

/-- Continue from a next state; a stop stays. -/
def andThen (o : Host.Outcome State Fault Refusal) (f : State → Host.Outcome State Fault Refusal) :
    Host.Outcome State Fault Refusal :=
  match o with
  | .next s => f s
  | .fault r => .fault r
  | .refused r => .refused r

/-- `n` steps of the machine, stopping at the first fault or refusal (the host's `Core.run` of `core`). -/
def runSteps : Nat → State → Host.Outcome State Fault Refusal
  | 0, s => .next s
  | n + 1, s => andThen (step s) (runSteps n)

/-- The word of `TICK g` (40_timer_service.md R120, R121). -/
def tickWord (g : Gran) : Sw := assemble (.tick g)

/-- The word of `LOOP` (40_timer_service.md R122). -/
def loopWord : Sw := assemble .loop

/-- The word of `TRESET slot, g` (40_timer_service.md R127). -/
def tresetWord (slot : Fin nSlots) (g : Gran) : Sw := assemble (.treset (BitVec.ofNat 4 slot.val) g)

/-- Opcode row k + 1: the response row of cell `k` (30_encoding.md R90). -/
def cellRow (k : Fin nCells) (a : RespArgs) : Instr :=
  match k with
  | 0 => .rxCell0 a
  | 1 => .rxCell1 a
  | 2 => .rxCell2 a
  | 3 => .rxCell3 a
  | 4 => .rxCell4 a
  | 5 => .rxCell5 a
  | 6 => .rxCell6 a
  | 7 => .rxCell7 a
  | 8 => .rxCell8 a

/-- The received frame an admitted RX word presents (30_encoding.md R80, R83). -/
def rxFrameOf (w : Sw) : RxFrame where
  queue := if swA w = 0 then .primary else .secondary
  frame :=
    { id := if swB w = 0 then .std ((swId w).setWidth 11) else .ext ((swId w).setWidth 29)
      rtr := bitOf (swC w)
      dlc := dlcOf w
      data := payloadOf (swData w) }

/-- One REQUESTING step from any state: PSM set to REQUESTING, then the PSM's transition (43_polling_fsm.md R221). -/
def requestingStep (s : State) : State := psmStep (s.writePsm .requesting)

/-- A schedule that keeps the boot order: only TICK words, then boot step (4), then any words
(70_reset_and_hazards.md R283 to R285). RX before boot is an assumption on the environment, not a check of the
machine (log 7). -/
def BootsFirst (c : Config) (ws : List Sw) : Prop :=
  ∃ (pre : List Gran) (post : List Sw), ws = pre.map tickWord ++ tresetWord c.pollSlot c.gPoll :: post

/-- A frame arrives at a receive queue that holds `frames`, oldest first: the environment's side of Q_DEPTH (00_scope.md R8,
60_exceptions.md R245, 70_reset_and_hazards.md R292, log 12). The block sees only the frames an RX event drains. -/
def arriveAtQueue (q : QueueSpec) (f : RxFrame) (frames : List RxFrame) : List RxFrame :=
  if frames.length < q.depth then frames ++ [f]
  else
    match q.overflow with
    | .loseArriving => frames
    | .overwriteOldest => (frames ++ [f]).drop 1
    | .overwriteNewest => (frames.dropLast ++ [f]).take q.depth

/-- What the one acceptance filter passes: an exact match of the identifier RESP_ID, and of IDE and RTR where it compares
them (60_exceptions.md R254, 93_implementation_defined.md I4, log 18). -/
def filterPasses (c : Config) (f : Frame) : Bool :=
  (canIdBits f.id).2 == c.respId.setWidth 32
    && (!c.filterIde || (canIdBits f.id).1 == 0)
    && (!c.filterRtr || !f.rtr)

/-- The frames the filter presents: those it passes, on queue FILTER_FIFO (60_exceptions.md R254). -/
def filterPresents (c : Config) (f : RxFrame) : Bool :=
  filterPasses c f.frame && f.queue == c.filterFifo

/-- A state with another acceptance filter. -/
def State.withFilter (q : Queue) (ide rtr : Bool) (s : State) : State :=
  { s with cfg := { s.cfg with filterFifo := q, filterIde := ide, filterRtr := rtr } }

end Sys2Proof.Machine
end

