-- ==== Sys2Proof/Certificates/Slice0/Obligations.lean ====
section
/-! DEFINITION. The statements for the provers. `PassesChecks` spells the checks of 30_encoding.md R84 and `R9Holds` the
constraints of 00_scope.md R9 from the spec's text, so that the statements do not rest on the model's own tests of them. -/

open Sys2Proof Sys2Proof.Machine

namespace Sys2Proof.Claims

/-- The checks WF_EC, WF_ZERO, WF_Q, WF_IDE, WF_RTR, WF_DLC, WF_ID, WF_G and WF_SLOT of 30_encoding.md R84, on the bit
ranges of R83. -/
def PassesChecks (w : Sw) : Prop :=
  (w.extractLsb 127 120 = 0x01#8 ∧ w.extractLsb 103 96 = 0#8 ∧ (w.extractLsb 119 116).toNat ≤ 1 ∧
      (w.extractLsb 115 112).toNat ≤ 1 ∧ (w.extractLsb 111 108).toNat ≤ 1 ∧ (w.extractLsb 107 104).toNat ≤ 8 ∧
      ((w.extractLsb 115 112).toNat = 0 → (w.extractLsb 95 64).toNat < 0x800) ∧
      ((w.extractLsb 115 112).toNat = 1 → (w.extractLsb 95 64).toNat < 2 ^ 29)) ∨
  (w.extractLsb 127 120 = 0x02#8 ∧ (w.extractLsb 119 116).toNat ≤ 1 ∧ w.extractLsb 115 0 = 0#116) ∨
  (w.extractLsb 127 120 = 0x03#8 ∧ w.extractLsb 119 0 = 0#120) ∨
  (w.extractLsb 127 120 = 0x04#8 ∧ (w.extractLsb 119 116).toNat ≤ 1 ∧ (w.extractLsb 115 112).toNat ≤ 9 ∧
      w.extractLsb 111 0 = 0#112) ∨
  (w.extractLsb 127 120 = 0x05#8 ∧ w.extractLsb 119 0 = 0#120)

/-- The constraints of 00_scope.md R9 on a configuration. -/
def R9Holds (c : Config) : Prop :=
  c.respId.toNat < 0x800 ∧ c.reqId.toNat < 0x800 ∧ c.respId ≠ c.reqId ∧
    ¬ c.tagSoc.toNat ≤ 0x09 ∧ ¬ c.tagPdate.toNat ≤ 0x09 ∧ c.tagSoc ≠ c.tagPdate ∧
    1 ≤ c.pPoll.toNat ∧ c.pPoll.toNat ≤ c.ceil.toNat ∧ c.ceil.toNat < 2 ^ c.cntW ∧ c.pollSlot.val < c.numSlots.val

/-- The registers only an RX event may write (10_state.md R42) are the same in both states. -/
def SameReadings (s t : State) : Prop :=
  t.cell = s.cell ∧ t.hv = s.hv ∧ t.soc = s.soc ∧ t.pdate = s.pdate ∧ t.lastIdx = s.lastIdx ∧
    t.discardCtr = s.discardCtr ∧ t.rxLog = s.rxLog

/-- The registers only LOOP may write (10_state.md R42) are the same in both states. -/
def SameSequencer (s t : State) : Prop :=
  t.cursor = s.cursor ∧ t.pdf = s.pdf ∧ t.psm = s.psm ∧ t.txLog = s.txLog ∧ t.lMs = s.lMs ∧ t.lDs = s.lDs

/-- Every register but the readings, the model's event history and DISCARD_CTR is the same in both states. -/
def SameOutsideReadings (s t : State) : Prop :=
  SameSequencer s t ∧ t.redraw = s.redraw ∧ t.tMs = s.tMs ∧ t.tDs = s.tDs ∧ t.slots = s.slots ∧ t.fault = s.fault ∧
    t.cfg = s.cfg ∧ t.stim = s.stim

end Sys2Proof.Claims

open Sys2Proof.Claims

/-! ## The step and the checks on words -/

/-- When the next word decodes to an instruction, the step is the meaning of that instruction on the state with the word
taken (30_encoding.md R85, 20_memory.md R70). -/
def Obligations.StepRunsTheDecodedInstruction : Prop :=
  ∀ (s : State) (w : Sw) (rest : List Sw) (i : Instr),
    s.fault = .none → s.cfg.legal = true → s.stim = w :: rest → decode s.cfg w = .ok i →
      step s = exec i { s with stim := rest }

/-- 30_encoding.md R84: a word that fails a check sets FAULT <- REFUSED_STIMULUS and takes no other action. -/
def Obligations.RefusedWordSetsOnlyTheFaultMark : Prop :=
  ∀ (s : State) (w : Sw) (rest : List Sw),
    s.fault = .none → s.cfg.legal = true → s.stim = w :: rest → ¬ PassesChecks w →
      step s = .next { s with stim := rest, fault := .refusedStimulus }

/-- 60_exceptions.md R240: every admitted event completes and leaves no FAULT mark, from every state that meets the
invariants of 10_state.md R43. -/
def Obligations.EveryAdmittedEventCompletes : Prop :=
  ∀ (s : State) (w : Sw) (rest : List Sw),
    Inv s → s.fault = .none → s.stim = w :: rest → PassesChecks w →
      ∃ t, step s = .next t ∧ t.fault = .none ∧ t.stim = rest ∧ t.cfg = s.cfg

/-- 10_state.md R40: a faulted state takes no further step, no step clears the mark, and it is NONE at reset. -/
def Obligations.FaultedStateTakesNoFurtherStep : Prop :=
  ∀ s : State,
    (s.fault = .refusedStimulus → step s = .fault .refusedStimulus) ∧
    (s.fault = .cursorOutOfRange → step s = .fault .cursorOutOfRange) ∧
    (∀ t, step s = .next t → s.fault = .none) ∧
    (powerOnReset s).fault = .none

/-- 00_scope.md R9: the model refuses the configurations outside the constraints, and of those within them exactly the ones
whose NFIELD or NCELLS is not the rules' figure (log 11). -/
def Obligations.ConfigurationOutsideTheConstraintsIsRefused : Prop :=
  ∀ s : State, s.fault = .none →
    (step s = .refused .illegalConfiguration ↔ ¬ R9Holds s.cfg ∨ s.cfg.numFields ≠ 10 ∨ s.cfg.numCells ≠ 9)

/-- The encodings written out in 30_encoding.md R93 and 95_test_vectors.md section 2 decode to their rows. That the decoder
reads the TX record as row 23 is log 6; as an input it is refused (its own statement). -/
def Obligations.WordsOfTheSpecDecodeToTheirRows : Prop :=
  decode Config.reference 0x010008000000072B000000000FA00000
      = .ok (.rxCell0 ⟨false, 8, 0, 0, 0, 0x0F, 0xA0, 0, 0⟩) ∧
    decode Config.reference 0x010008000000072B0000001120190A1F
      = .ok (.rxPdate ⟨false, 8, 0, 0, 0, 0x20, 0x19, 0x0A, 0x1F⟩) ∧
    decode Config.reference 0x010010000000072B000000099C400000
      = .ok (.rxHv ⟨true, 0, 0, 0, 0, 0x9C, 0x40, 0, 0⟩) ∧
    decode Config.reference 0x010008000000072A000000010F3C0000
      = .ok (.rxIdMismatch 0x72A ⟨false, 8, ⟨0, 0, 0, 1, 0x0F, 0x3C, 0, 0⟩⟩) ∧
    decode Config.reference 0x0111080018DAF110000000020ED80000
      = .ok (.rxExtQ1 0x18DAF110 ⟨false, 8, ⟨0, 0, 0, 2, 0x0E, 0xD8, 0, 0⟩⟩) ∧
    decode Config.reference 0x02100000000000000000000000000000 = .ok .tickDs ∧
    decode Config.reference 0x03000000000000000000000000000000 = .ok .loop ∧
    decode Config.reference 0x04110000000000000000000000000000 = .ok (.treset 1 .ds) ∧
    decode Config.reference 0x05000000000000000000000000000000 = .ok .ack ∧
    decode Config.reference 0x80000800000007230322D91400000000 = .ok (.txReq 0x14)

/-- Decoding the word of a well-formed instruction gives the instruction back, with every operand, in every legal
configuration. -/
def Obligations.DecodeOfEncodeIsTheInstruction : Prop :=
  ∀ (c : Config) (i : Instr), c.legal = true → i.wf c = true → decode c (encode c i) = .ok i

/-- A word that decodes is the word of the instruction it decodes to, and that instruction is well-formed: each event has
one word. -/
def Obligations.EncodeOfDecodeIsTheWord : Prop :=
  ∀ (c : Config) (w : Sw) (i : Instr), decode c w = .ok i → encode c i = w ∧ i.wf c = true

/-- 30_encoding.md R85: every admitted word decodes, to an input event; the first opcode row it matches is the row of that
event; and it is one of the RX rows exactly when the word is an RX word. -/
def Obligations.FirstMatchingRowSelectsTheEvent : Prop :=
  ∀ (c : Config) (w : Sw), PassesChecks w →
    ∃ i, decode c w = .ok i ∧ i.isInput = true ∧ firstRow c w = some i.mnemonic ∧
      (w.extractLsb 127 120 = 0x01#8 ↔ i.eventClass = .rx)

/-! ## Receive rows -/

/-- 41_receive_demux.md R153 to R161: the response word with tag k decodes to the row of cell k, which completes, writes
CELL[k] = D[4]*256 + D[5] and LAST_IDX = k, and changes no other register. The outcome it returns has its own statement. -/
def Obligations.CellResponseWritesItsCell : Prop :=
  ∀ (k : Fin nCells) (a : RespArgs) (s : State),
    decode s.cfg (encodeResponse s.cfg (BitVec.ofNat 8 k.val) a) = .ok (cellRow k a) ∧
    ∃ t, exec (cellRow k a) s = .next t ∧
      t = { s with
        cell := s.cell.set k (BitVec.ofNat 16 (a.d4.toNat * 256 + a.d5.toNat))
        lastIdx := BitVec.ofNat 8 k.val
        rxLog := t.rxLog }

/-- 41_receive_demux.md R162, R164: the aggregate-voltage and state-of-charge responses, their words and their effects. -/
def Obligations.VoltageAndChargeResponsesWriteTheirRegister : Prop :=
  ∀ (a : RespArgs) (s : State), s.cfg.legal = true →
    decode s.cfg (encodeResponse s.cfg 0x09 a) = .ok (.rxHv a) ∧
      decode s.cfg (encodeResponse s.cfg s.cfg.tagSoc a) = .ok (.rxSoc a) ∧
      (∃ t, exec (.rxHv a) s = .next t ∧
        t = { s with hv := BitVec.ofNat 16 (a.d4.toNat * 256 + a.d5.toNat), lastIdx := 0x09, rxLog := t.rxLog }) ∧
      ∃ t, exec (.rxSoc a) s = .next t ∧
        t = { s with
          soc := BitVec.ofNat 16 (a.d4.toNat * 256 + a.d5.toNat), lastIdx := s.cfg.tagSoc, rxLog := t.rxLog }

/-- 41_receive_demux.md R163: the production-date response in both modes, its word and its effect. -/
def Obligations.ProductionDateResponseFollowsItsMode : Prop :=
  ∀ (a : RespArgs) (s : State), s.cfg.legal = true →
    decode s.cfg (encodeResponse s.cfg s.cfg.tagPdate a) = .ok (.rxPdate a) ∧
    ∃ t, exec (.rxPdate a) s = .next t ∧
      t = { s with pdate := t.pdate, lastIdx := s.cfg.tagPdate, rxLog := t.rxLog } ∧
        (s.cfg.pdateMode = .bitOr →
          t.pdate.toNat = a.d4.toNat ||| a.d5.toNat ||| a.d6.toNat ||| a.d7.toNat) ∧
        (s.cfg.pdateMode = .be32 →
          t.pdate.toNat = a.d4.toNat * 2 ^ 24 + a.d5.toNat * 2 ^ 16 + a.d6.toNat * 2 ^ 8 + a.d7.toNat)

/-- 60_exceptions.md R241: the twelve rows that write a value return UPDATE; the record of outcomes is log 8. -/
def Obligations.ValueRowsReturnUpdate : Prop :=
  ∀ (k : Fin nCells) (a : RespArgs) (s : State), ∀ i ∈ [cellRow k a, .rxHv a, .rxPdate a, .rxSoc a],
    ∃ t, exec i s = .next t ∧ t.rxLog = s.rxLog ++ [.update]

/-- 41_receive_demux.md R165, R168: an unrecognised tag and an extended frame on the secondary queue write no register
and do not count as discarded. -/
def Obligations.UnrecognisedTagAndPlaceholderWriteNoRegister : Prop :=
  ∀ (t : Byte) (a : RespArgs) (id : ExtId) (b : FrameArgs) (s : State),
    exec (.rxTagOther t a) s = .next { s with rxLog := s.rxLog ++ [.ignoredTag] } ∧
      exec (.rxExtQ1 id b) s = .next { s with rxLog := s.rxLog ++ [.placeholder] }

/-- 41_receive_demux.md R166, R167, R175: the two discards of the primary queue count when the counter exists, and write
nothing else. -/
def Obligations.DiscardedFramesOnlyCount : Prop :=
  ∀ (id : StdId) (x : ExtId) (a : FrameArgs) (s : State),
    exec (.rxIdMismatch id a) s = .next
        { s with
          discardCtr := if s.cfg.hasDiscardCtr then BitVec.ofNat 32 (s.discardCtr.toNat + 1) else s.discardCtr
          rxLog := s.rxLog ++ [.discardId] } ∧
      exec (.rxExtQ0 x a) s = .next
        { s with
          discardCtr := if s.cfg.hasDiscardCtr then BitVec.ofNat 32 (s.discardCtr.toNat + 1) else s.discardCtr
          rxLog := s.rxLog ++ [.discardType] }

/-- 41_receive_demux.md R169: a standard frame on the secondary queue, for both policies; accepted, it has exactly the
effect of the primary-queue row of its tag. The record of outcomes is log 8; an absent counter that never changes is log
10. -/
def Obligations.SecondaryQueueStandardFrameFollowsThePolicy : Prop :=
  ∀ (id : StdId) (a : FrameArgs) (s : State), s.cfg.legal = true →
    (s.cfg.q1StdPolicy = .discard → exec (.rxStdQ1 id a) s = .next
      { s with
        discardCtr := if s.cfg.hasDiscardCtr then BitVec.ofNat 32 (s.discardCtr.toNat + 1) else s.discardCtr
        rxLog := s.rxLog ++ [.discardType] }) ∧
    (s.cfg.q1StdPolicy = .decode → id ≠ s.cfg.respId → exec (.rxStdQ1 id a) s = .next
      { s with
        discardCtr := if s.cfg.hasDiscardCtr then BitVec.ofNat 32 (s.discardCtr.toNat + 1) else s.discardCtr
        rxLog := s.rxLog ++ [.discardId] }) ∧
    (s.cfg.q1StdPolicy = .decode → id = s.cfg.respId → ∃ t, exec (.rxStdQ1 id a) s = .next t ∧
      exec (decodeResponse s.cfg a.data.d3
        ⟨a.rtr, a.dlc, a.data.d0, a.data.d1, a.data.d2, a.data.d4, a.data.d5, a.data.d6, a.data.d7⟩) s = .next t)

/-- 41_receive_demux.md R151: the opcode rows and the classification of a received frame agree: an admitted RX word does
to the state what the classification does with the frame it presents. -/
def Obligations.OpcodeRowsAgreeWithTheClassification : Prop :=
  ∀ (s : State) (w : Sw) (rest : List Sw),
    s.fault = .none → s.cfg.legal = true → s.stim = w :: rest → PassesChecks w → w.extractLsb 127 120 = 0x01#8 →
      step s = .next (rxReturn (demux (rxFrameOf w) { s with stim := rest }))

/-- 41_receive_demux.md R175, 60_exceptions.md R241: every RX event returns one outcome; the counter counts DISCARD_ID and
DISCARD_TYPE only, and only UPDATE writes a value. -/
def Obligations.OutcomeSaysWhichRegistersAreWritten : Prop :=
  ∀ (i : Instr) (s t : State), i.eventClass = .rx → exec i s = .next t →
    ∃ o : RxOutcome, t.rxLog = s.rxLog ++ [o] ∧
      t.discardCtr.toNat
        = (if s.cfg.hasDiscardCtr = true ∧ (o = .discardId ∨ o = .discardType) then (s.discardCtr.toNat + 1) % 2 ^ 32
            else s.discardCtr.toNat) ∧
      (o ≠ .update → t.cell = s.cell ∧ t.hv = s.hv ∧ t.soc = s.soc ∧ t.pdate = s.pdate ∧ t.lastIdx = s.lastIdx)

/-- 41_receive_demux.md R170: an RX event writes at most one value field, writes LAST_IDX exactly when it writes one, and
touches no other register but DISCARD_CTR. -/
def Obligations.ReceiveEventWritesAtMostOneValueField : Prop :=
  ∀ (i : Instr) (s t : State), i.eventClass = .rx → exec i s = .next t →
    SameOutsideReadings s t ∧
    ((∃ (k : Fin nCells) (v : HalfWord), t.cell = s.cell.set k v ∧ t.lastIdx = BitVec.ofNat 8 k.val ∧
        t.hv = s.hv ∧ t.soc = s.soc ∧ t.pdate = s.pdate) ∨
      (t.lastIdx = 0x09 ∧ t.cell = s.cell ∧ t.soc = s.soc ∧ t.pdate = s.pdate) ∨
      (t.lastIdx = s.cfg.tagSoc ∧ t.cell = s.cell ∧ t.hv = s.hv ∧ t.pdate = s.pdate) ∨
      (t.lastIdx = s.cfg.tagPdate ∧ t.cell = s.cell ∧ t.hv = s.hv ∧ t.soc = s.soc) ∨
      (t.lastIdx = s.lastIdx ∧ t.cell = s.cell ∧ t.hv = s.hv ∧ t.soc = s.soc ∧ t.pdate = s.pdate))

/-- 41_receive_demux.md R171, R172, R173: two admitted RX words that differ only in RTR, DLC and D[0..2] have the same
effect. -/
def Obligations.RtrDlcAndLeadingBytesAreNotRead : Prop :=
  ∀ (s : State) (v w : Sw) (rest : List Sw),
    PassesChecks v → PassesChecks w → v.extractLsb 127 120 = 0x01#8 →
    v.extractLsb 127 112 = w.extractLsb 127 112 → v.extractLsb 95 64 = w.extractLsb 95 64 →
    v.extractLsb 39 0 = w.extractLsb 39 0 →
      step { s with stim := v :: rest } = step { s with stim := w :: rest }

/-- 20_memory.md R72, 10_state.md R42: an RX event and any other event give the same state in either order. -/
def Obligations.ReceiveCommutesWithEveryOtherEvent : Prop :=
  ∀ (i j : Instr) (s : State), i.eventClass = .rx → j.eventClass ≠ .rx →
    andThen (exec i s) (exec j) = andThen (exec j s) (exec i)

/-- 42_request_encoder.md R195: a request of the block looped back on the primary queue is discarded for its identifier
and writes no reading. -/
def Obligations.LoopedBackRequestIsDiscarded : Prop :=
  ∀ (s : State) (p : Byte) (dlc : Fin 9) (rest : List Sw),
    s.fault = .none → s.cfg.legal = true →
      s.stim = encodeRx 0 0 false dlc (s.cfg.reqId.setWidth 32) (encodeRequest s.cfg p).data :: rest →
        ∃ t, step s = .next t ∧ t.rxLog = s.rxLog ++ [.discardId] ∧ t.cell = s.cell ∧ t.hv = s.hv ∧ t.soc = s.soc ∧
          t.pdate = s.pdate ∧ t.lastIdx = s.lastIdx

/-- 60_exceptions.md R254: a frame the reference filter, which passes standard frames to queue 0, presents is a response
row: it updates a field or is ignored for its tag, whether or not the filter compares RTR. The filter as modelled is log 18. -/
def Obligations.FilteredFrameIsNeverDiscarded : Prop :=
  ∀ (f : RxFrame) (s : State), s.cfg.filterFifo = .primary → s.cfg.filterIde = true → filterPresents s.cfg f = true →
    (demux f s).1 = .update ∨ (demux f s).1 = .ignoredTag ∧ (demux f s).2 = s

/-- 60_exceptions.md R254, 93_implementation_defined.md I4: which frames each setting of the filter presents, and what the
demux returns for them: no setting lets a frame through that is discarded for its identifier. What the filter compares of an
extended identifier is log 18. -/
def Obligations.FilterSettingDecidesWhichFramesArrive : Prop :=
  ∀ (f : RxFrame) (s : State),
    (filterPresents s.cfg f = true ↔
      f.queue = s.cfg.filterFifo ∧ (s.cfg.filterRtr = true → f.frame.rtr = false) ∧
        (f.frame.id = .std s.cfg.respId ∨
          s.cfg.filterIde = false ∧ f.frame.id = .ext (BitVec.ofNat 29 s.cfg.respId.toNat))) ∧
    (filterPresents s.cfg f = true →
      (demux f s).1 ≠ .discardId ∧
      ((demux f s).1 = .discardType →
        s.cfg.filterFifo = .primary ∧ s.cfg.filterIde = false ∨
          s.cfg.filterFifo = .secondary ∧ s.cfg.q1StdPolicy = .discard) ∧
      ((demux f s).1 = .placeholder → s.cfg.filterFifo = .secondary ∧ s.cfg.filterIde = false))

/-- 60_exceptions.md R254: the effect of every event is the same whatever the filter is. -/
def Obligations.EffectsDoNotDependOnTheFilter : Prop :=
  ∀ (i : Instr) (s : State) (q : Queue) (ide rtr : Bool),
    exec i (s.withFilter q ide rtr) = andThen (exec i s) (fun t => .next (t.withFilter q ide rtr))

/-! ## Timer service -/

/-- 40_timer_service.md R120, R121: a TICK inverts its toggle flag and does nothing else; its word. -/
def Obligations.TickInvertsItsToggleFlag : Prop :=
  ∀ s : State,
    decode s.cfg 0x02000000000000000000000000000000 = .ok .tickMs ∧
      decode s.cfg 0x02100000000000000000000000000000 = .ok .tickDs ∧
      exec .tickMs s = .next { s with tMs := !s.tMs } ∧ exec .tickDs s = .next { s with tDs := !s.tDs }

/-- 40_timer_service.md R127: TRESET zeroes the counter, clears the expired flag, writes the granularity, sets RUN, leaves
PERIOD and every other slot and register; its word has class 0x04, A the granularity and B the slot. -/
def Obligations.TresetRearmsItsSlotOnly : Prop :=
  ∀ (slot : Fin nSlots) (g : Gran) (s : State),
    decode s.cfg (0x04#8 ++ (if g = .ms then 0#4 else 1#4) ++ BitVec.ofNat 4 slot.val ++ 0#112) = .ok (.treset slot g) ∧
    ∃ t, exec (.treset slot g) s = .next t ∧
      t = { s with slots := t.slots } ∧
      t.slots[slot].cnt = 0 ∧ t.slots[slot].expired = false ∧ t.slots[slot].gran = g ∧ t.slots[slot].run = true ∧
      t.slots[slot].period = s.slots[slot].period ∧
      ∀ j : Fin nSlots, j ≠ slot → t.slots[j] = s.slots[j]

/-- 40_timer_service.md R122 to R126: one LOOP pass samples both flags and counts one tick into every running slot below
NSLOTS whose flag shows an edge, saturating at CEIL and setting EXP at PERIOD; the other slots keep their values. The poll
slot in a REQUESTING pass is re-armed after it and has its own statement. In a REQUESTING pass with CURSOR above 10 that the
samples stand beside the fault mark is log 9; that slots at or above NSLOTS keep registers is log 11. -/
def Obligations.LoopCountsOneTickPerEdge : Prop :=
  ∀ s : State, ∃ t, exec .loop s = .next t ∧ t.lMs = s.tMs ∧ t.lDs = s.tDs ∧ t.tMs = s.tMs ∧ t.tDs = s.tDs ∧
    ∀ j : Fin nSlots, (j = s.cfg.pollSlot → s.psm ≠ .requesting) →
      (j.val < s.cfg.numSlots.val ∧ s.slots[j].run = true ∧
          (s.slots[j].gran = .ms ∧ s.tMs ≠ s.lMs ∨ s.slots[j].gran = .ds ∧ s.tDs ≠ s.lDs) →
        t.slots[j].cnt.toNat = min (s.slots[j].cnt.toNat + 1) s.cfg.ceil.toNat ∧
          (t.slots[j].expired = true ↔
            s.slots[j].expired = true ∨ s.slots[j].period.toNat ≤ t.slots[j].cnt.toNat)) ∧
      (¬ (j.val < s.cfg.numSlots.val ∧ s.slots[j].run = true ∧
          (s.slots[j].gran = .ms ∧ s.tMs ≠ s.lMs ∨ s.slots[j].gran = .ds ∧ s.tDs ≠ s.lDs)) →
        t.slots[j] = s.slots[j]) ∧
      t.slots[j].run = s.slots[j].run ∧ t.slots[j].gran = s.slots[j].gran ∧ t.slots[j].period = s.slots[j].period

/-- 40_timer_service.md R130: for every event, a counter stays or rises by one, up to CEIL, but for TRESET of its slot and
the PSM's re-arm, which zero it. -/
def Obligations.CounterDecreasesOnlyOnReset : Prop :=
  ∀ (i : Instr) (s t : State) (j : Fin nSlots),
    s.slots[j].cnt.toNat ≤ s.cfg.ceil.toNat → exec i s = .next t →
      (t.slots[j].cnt = s.slots[j].cnt ∨
        t.slots[j].cnt.toNat = s.slots[j].cnt.toNat + 1 ∧ t.slots[j].cnt.toNat ≤ s.cfg.ceil.toNat) ∨
      ((∃ g, i = .treset j g) ∨ i = .loop ∧ s.psm = .requesting ∧ s.cfg.pollSlot = j) ∧ t.slots[j].cnt = 0

/-- 40_timer_service.md R129: after k TICK g events from T_g = L_g, the LOOP pass counts one tick into a running slot of
that granularity if k is odd and none if k is even. The slots are 0..NSLOTS-1. In a REQUESTING pass with CURSOR above 10 that
the tick is counted beside the fault mark is log 9. -/
def Obligations.MissedEdgesCountByParity : Prop :=
  ∀ (g : Gran) (k : Nat) (s : State) (rest : List Sw) (j : Fin nSlots),
    s.fault = .none → s.cfg.legal = true → toggleFlag g s = sampledLevel g s →
    s.stim = List.replicate k (tickWord g) ++ loopWord :: rest →
    j.val < s.cfg.numSlots.val → s.slots[j].run = true → s.slots[j].gran = g →
    (j = s.cfg.pollSlot → s.psm ≠ .requesting) →
      ∃ t, runSteps (k + 1) s = .next t ∧ t.stim = rest ∧
        t.slots[j].cnt.toNat
          = if k % 2 = 1 then min (s.slots[j].cnt.toNat + 1) s.cfg.ceil.toNat else s.slots[j].cnt.toNat

/-- 70_reset_and_hazards.md R285: TICK events before boot step (4) toggle their flags and leave the poll slot at 0, and the
first LOOP after boot counts one tick into it exactly when an odd number of TICK G_POLL events came since reset. -/
def Obligations.FirstLoopAfterBootCountsTheParity : Prop :=
  ∀ (c : Config) (pre mid : List Gran) (rest : List Sw), c.legal = true →
    ∃ u t, runSteps (pre.length + 1)
        { State.resetWith c with
          stim := pre.map tickWord ++ tresetWord c.pollSlot c.gPoll :: (mid.map tickWord ++ loopWord :: rest) } = .next u ∧
      u.slots[c.pollSlot] = ⟨0, false, true, c.gPoll, c.pPoll⟩ ∧
      (∀ g, toggleFlag g u = decide (pre.count g % 2 = 1)) ∧
      runSteps (mid.length + 1) u = .next t ∧
      t.stim = rest ∧ t.psm = .armed ∧ t.slots[c.pollSlot].cnt.toNat = (pre ++ mid).count c.gPoll % 2

/-- 70_reset_and_hazards.md R283, 10_state.md R35: once boot step (4) has armed the poll slot, nothing stops it: in every
schedule that keeps the boot order it is running after the schedule. -/
def Obligations.BootedPollSlotKeepsRunning : Prop :=
  ∀ (c : Config) (ws : List Sw) (t : State),
    BootsFirst c ws → runSteps ws.length { State.resetWith c with stim := ws } = .next t →
      t.slots[c.pollSlot].run = true ∧ t.slots[c.pollSlot].period = c.pPoll ∧ t.stim = []

/-! ## Polling state machine -/

/-- 43_polling_fsm.md R211, R212, R218: the PSM leaves IDLE and COOLDOWN at once, and ARMED exactly when the counter, with
the ticks of this pass counted, has reached the period; these passes change nothing else of the PSM's registers. -/
def Obligations.LoopTakesOneTransition : Prop :=
  ∀ s : State, s.psm ≠ .requesting → ∃ t, exec .loop s = .next t ∧
    (s.psm = .idle → t.psm = .armed) ∧
    (s.psm = .armed → t.psm = if t.slots[s.cfg.pollSlot].period.toNat ≤ t.slots[s.cfg.pollSlot].cnt.toNat
      then .requesting else .armed) ∧
    (s.psm = .cooldown → t.psm = .idle) ∧
    t.cursor = s.cursor ∧ t.pdf = s.pdf ∧ t.redraw = s.redraw ∧ t.txLog = s.txLog ∧ t.fault = s.fault

/-- 43_polling_fsm.md R213 to R217, 42_request_encoder.md R190 to R192: a REQUESTING pass sends one request for the
parameter the cursor selects, advances the cursor modulo 11, re-arms the poll slot with G_POLL, sets REDRAW and goes to
COOLDOWN. -/
def Obligations.RequestingPassSendsOneRequest : Prop :=
  ∀ s : State, s.psm = .requesting → s.cursor.toNat ≤ 10 → ∃ t, exec .loop s = .next t ∧
    t.txLog = s.txLog ++
      [{ id := .std s.cfg.reqId, rtr := false, dlc := 8
         data := ⟨s.cfg.reqByte0, s.cfg.reqByte1, s.cfg.reqByte2,
          (if s.cursor.toNat ≤ 9 then BitVec.ofNat 8 s.cursor.toNat
            else if s.pdf then s.cfg.tagSoc else s.cfg.tagPdate), 0, 0, 0, 0⟩ }] ∧
    (t.pdf = true ↔ s.pdf = true ∨ s.cursor.toNat = 10) ∧
    t.cursor.toNat = (s.cursor.toNat + 1) % 11 ∧ t.redraw = true ∧ t.psm = .cooldown ∧ t.fault = s.fault ∧
    t.slots[s.cfg.pollSlot]
      = { cnt := 0, expired := false, run := true, gran := s.cfg.gPoll, period := s.slots[s.cfg.pollSlot].period }

/-- 43_polling_fsm.md R220: a REQUESTING step with CURSOR > 10 sets the FAULT mark and changes nothing else. That the
sampling of the same LOOP pass stands is the model's reading (log 9). -/
def Obligations.CursorAboveTenOnlyMarksTheFault : Prop :=
  ∀ s : State, s.psm = .requesting → 10 < s.cursor.toNat →
    exec .loop s = .next { sampleBoth s with fault := .cursorOutOfRange } ∧
      (s.tMs = s.lMs → s.tDs = s.lDs → exec .loop s = .next { s with fault := .cursorOutOfRange })

/-- 43_polling_fsm.md R219: ACK clears REDRAW and nothing else; its word. -/
def Obligations.AckClearsRedraw : Prop :=
  ∀ s : State, decode s.cfg 0x05000000000000000000000000000000 = .ok .ack ∧ exec .ack s = .next { s with redraw := false }

/-- 30_encoding.md R84, R90: a TX record presented as an input is refused: whatever the parameter index, the step only marks
the fault. That the decoder reads it as row 23 is log 6. -/
def Obligations.TxRecordAsAnInputIsRefused : Prop :=
  ∀ (s : State) (p : Byte) (rest : List Sw),
    s.fault = .none → s.cfg.legal = true → s.stim = frameRecord (encodeRequest s.cfg p) :: rest →
      step s = .next { s with stim := rest, fault := .refusedStimulus } ∧
        exec (.txReq p) s = .next { s with fault := .refusedStimulus }

/-- 42_request_encoder.md R190, R194: encode_request(p), and its TX record, which is the word of row 23 with index p. -/
def Obligations.RequestFrameAndItsRecord : Prop :=
  ∀ (c : Config) (p : Byte),
    encodeRequest c p = ⟨.std c.reqId, false, 8, ⟨c.reqByte0, c.reqByte1, c.reqByte2, p, 0, 0, 0, 0⟩⟩ ∧
      frameRecord (encodeRequest c p) = encode c (.txReq p) ∧
      (frameRecord (encodeRequest Config.reference p)).toNat
        = 0x80000800000007230322D90000000000 + p.toNat * 2 ^ 32

/-- 43_polling_fsm.md R221: eleven REQUESTING steps from CURSOR = 0, PDF = 0 request 0x00..0x09 and TAG_PDATE, and the
next eleven 0x00..0x09 and TAG_SOC; each round returns the cursor to 0 and leaves PDF = 1. -/
def Obligations.ElevenRequestsGoRoundOnce : Prop :=
  ∀ s : State, s.cursor = 0 → s.pdf = false →
    (requestingStep^[11] s).txLog
        = s.txLog ++ ([0, 1, 2, 3, 4, 5, 6, 7, 8, 9, s.cfg.tagPdate] : List Byte).map (encodeRequest s.cfg) ∧
      (requestingStep^[11] s).cursor = 0 ∧ (requestingStep^[11] s).pdf = true ∧
      (requestingStep^[10] s).pdf = false ∧
      (requestingStep^[22] s).txLog
        = (requestingStep^[11] s).txLog
          ++ ([0, 1, 2, 3, 4, 5, 6, 7, 8, 9, s.cfg.tagSoc] : List Byte).map (encodeRequest s.cfg) ∧
      (requestingStep^[22] s).cursor = 0 ∧ (requestingStep^[22] s).pdf = true

/-- 43_polling_fsm.md R222: from IDLE with the poll slot armed and empty and no edge pending on T_{G_POLL}, CYCLE sends
exactly one request, for the parameter the cursor selects, and ends where it began: the gate fires in the LOOP of the
P_POLL-th STEP, the request is sent in the next LOOP, COOLDOWN ends in the one after. -/
def Obligations.CycleSendsExactlyOneRequest : Prop :=
  ∀ (s : State) (rest : List Sw),
    s.fault = .none → s.cfg.legal = true → s.cursor.toNat ≤ 10 → s.psm = .idle →
    s.slots[s.cfg.pollSlot].cnt = 0 → s.slots[s.cfg.pollSlot].run = true →
    s.slots[s.cfg.pollSlot].gran = s.cfg.gPoll → s.slots[s.cfg.pollSlot].period = s.cfg.pPoll →
    toggleFlag s.cfg.gPoll s = sampledLevel s.cfg.gPoll s →
    s.stim = assembleAll (cycleLines s.cfg) ++ rest →
      ∃ r u v t, runSteps (2 * s.cfg.pPoll.toNat) s = .next r ∧ r.psm = .armed ∧ r.txLog = s.txLog ∧
        step r = .next u ∧ u.psm = .requesting ∧ u.txLog = s.txLog ∧
        step u = .next v ∧ v.psm = .cooldown ∧
        v.txLog = s.txLog ++ [encodeRequest s.cfg
          (if s.cursor.toNat ≤ 9 then BitVec.ofNat 8 s.cursor.toNat
            else if s.pdf then s.cfg.tagSoc else s.cfg.tagPdate)] ∧
        step v = .next t ∧ t.stim = rest ∧ t.psm = .idle ∧ t.txLog = v.txLog ∧ t.fault = .none ∧ t.cfg = s.cfg ∧
        t.cursor.toNat = (s.cursor.toNat + 1) % 11 ∧
        t.slots[s.cfg.pollSlot].cnt = 0 ∧ t.slots[s.cfg.pollSlot].run = true ∧
        t.slots[s.cfg.pollSlot].gran = s.cfg.gPoll ∧ t.slots[s.cfg.pollSlot].period = s.cfg.pPoll ∧
        toggleFlag s.cfg.gPoll t = sampledLevel s.cfg.gPoll t

/-- 43_polling_fsm.md R224: from the state a request leaves (COOLDOWN, the poll slot re-armed), a run with no TRESET sends
the next request only after at least P_POLL + 1 LOOP passes, at least four of them, and at least P_POLL TICK G_POLL
events, one fewer if an edge was already pending. -/
def Obligations.NextRequestNeedsTheWholePeriod : Prop :=
  ∀ (s t : State) (ws rest : List Sw),
    s.fault = .none → s.cfg.legal = true → s.psm = .cooldown →
    s.slots[s.cfg.pollSlot].cnt = 0 → s.slots[s.cfg.pollSlot].gran = s.cfg.gPoll →
    s.slots[s.cfg.pollSlot].period = s.cfg.pPoll →
    s.stim = ws ++ rest → (∀ w ∈ ws, w.extractLsb 127 120 ≠ 0x04#8) →
    runSteps ws.length s = .next t → t.txLog ≠ s.txLog →
      4 ≤ ws.count loopWord ∧ s.cfg.pPoll.toNat + 1 ≤ ws.count loopWord ∧
        s.cfg.pPoll.toNat ≤ ws.count (tickWord s.cfg.gPoll)
          + (if toggleFlag s.cfg.gPoll s = sampledLevel s.cfg.gPoll s then 0 else 1)

/-- 40_timer_service.md R131: with no TICK and no TRESET, every counter freezes and the PSM waits in ARMED, whatever other
admitted events come. -/
def Obligations.WithoutTicksThePollerWaits : Prop :=
  ∀ (s : State) (ws rest : List Sw),
    s.fault = .none → s.cfg.legal = true → s.psm = .armed → s.tMs = s.lMs → s.tDs = s.lDs →
    s.slots[s.cfg.pollSlot].cnt.toNat < s.slots[s.cfg.pollSlot].period.toNat →
    s.stim = ws ++ rest →
    (∀ w ∈ ws, PassesChecks w ∧ w.extractLsb 127 120 ≠ 0x02#8 ∧ w.extractLsb 127 120 ≠ 0x04#8) →
      ∃ t, runSteps ws.length s = .next t ∧ t.stim = rest ∧ t.psm = .armed ∧ t.slots = s.slots ∧ t.txLog = s.txLog

/-- 70_reset_and_hazards.md R291: once PDF is set no event clears it and no later request carries TAG_PDATE. -/
def Obligations.ProductionDateIsRequestedOnce : Prop :=
  ∀ (i : Instr) (s t : State), s.cfg.legal = true → s.pdf = true → exec i s = .next t →
    t.pdf = true ∧
      (t.txLog = s.txLog ∨ ∃ f, t.txLog = s.txLog ++ [f] ∧ f.data.d3 ≠ s.cfg.tagPdate)

/-! ## Who writes what -/

/-- 10_state.md R26, R42, 60_exceptions.md R251: no event but RX writes a BatteryReading register or DISCARD_CTR. -/
def Obligations.OnlyReceiveWritesTheReadings : Prop :=
  ∀ (i : Instr) (s t : State), i.eventClass ≠ .rx → exec i s = .next t → SameReadings s t

/-- 10_state.md R42, 42_request_encoder.md R193: no event but LOOP writes CURSOR, PDF, PSM, TXLOG, L_MS or L_DS, and a
LOOP pass appends at most one frame. -/
def Obligations.OnlyLoopMovesTheSequencer : Prop :=
  ∀ (i : Instr) (s t : State), exec i s = .next t →
    (i ≠ .loop → SameSequencer s t) ∧ (i = .loop → t.txLog = s.txLog ∨ ∃ f, t.txLog = s.txLog ++ [f])

/-- 10_state.md R31, R30, R42: the toggle flags are written by their TICK only, REDRAW by LOOP and ACK only. -/
def Obligations.TogglesAndRedrawHaveTheirWriters : Prop :=
  ∀ (i : Instr) (s t : State), exec i s = .next t →
    (i ≠ .tickMs → t.tMs = s.tMs) ∧ (i ≠ .tickDs → t.tDs = s.tDs) ∧
      (i ≠ .loop → i ≠ .ack → t.redraw = s.redraw) ∧ (i = .loop → s.redraw = true → t.redraw = true)

/-- 10_state.md R35, R36, R37, R42: slots are written by LOOP and TRESET only, no event clears RUN or writes PERIOD, RUN
and GRAN of a slot change only by its TRESET or the PSM's re-arm of POLL_SLOT, and no event writes the configuration. -/
def Obligations.TimerSlotsHaveTheirWriters : Prop :=
  ∀ (i : Instr) (s t : State), exec i s = .next t →
    t.cfg = s.cfg ∧ t.stim = s.stim ∧
      (i ≠ .loop → i.eventClass ≠ .treset → t.slots = s.slots) ∧
      ∀ j : Fin nSlots,
        t.slots[j].period = s.slots[j].period ∧ (s.slots[j].run = true → t.slots[j].run = true) ∧
          ((∀ g, i ≠ .treset j g) → ¬ (i = .loop ∧ s.psm = .requesting ∧ j = s.cfg.pollSlot) →
            t.slots[j].run = s.slots[j].run ∧ t.slots[j].gran = s.slots[j].gran)

/-! ## Reset, invariants, read port -/

/-- 70_reset_and_hazards.md R280, R281: the value of every register after power-on reset from any state. -/
def Obligations.ResetGivesEveryRegisterItsValue : Prop :=
  ∀ s : State,
    (∀ k : Fin nCells, (powerOnReset s).cell[k] = 0) ∧ (powerOnReset s).hv = 0 ∧ (powerOnReset s).soc = 0 ∧
      (powerOnReset s).pdate = 0 ∧ (powerOnReset s).lastIdx = 0 ∧ (powerOnReset s).cursor = 0 ∧
      (powerOnReset s).pdf = false ∧ (powerOnReset s).psm = .idle ∧ (powerOnReset s).redraw = false ∧
      (powerOnReset s).tMs = false ∧ (powerOnReset s).tDs = false ∧ (powerOnReset s).lMs = false ∧
      (powerOnReset s).lDs = false ∧ (powerOnReset s).discardCtr = 0 ∧ (powerOnReset s).txLog = [] ∧
      (powerOnReset s).fault = .none ∧
      ∀ j : Fin nSlots, (powerOnReset s).slots[j]
        = ⟨0, false, false, .ms, if j = s.cfg.pollSlot then s.cfg.pPoll else 0⟩

/-- 70_reset_and_hazards.md R283 step (4), 95_test_vectors.md: the launch state is the reset state with the poll slot
running at G_POLL. -/
def Obligations.LaunchArmsThePollSlot : Prop :=
  ∀ c : Config,
    State.launch c = { State.resetWith c with slots := (State.launch c).slots } ∧
      ∀ j : Fin nSlots, (State.launch c).slots[j]
        = if j = c.pollSlot then ⟨0, false, true, c.gPoll, c.pPoll⟩ else ⟨0, false, false, .ms, 0⟩

/-- The reset and launch states of every legal configuration meet the invariants of 10_state.md R43. -/
def Obligations.ResetMeetsTheInvariants : Prop :=
  ∀ c : Config, c.legal = true →
    Inv (State.resetWith c) ∧ Inv (State.launch c) ∧ SentOnlyRequests (State.resetWith c)

/-- 10_state.md R43: every step keeps the invariants. -/
def Obligations.EveryStepKeepsTheInvariants : Prop :=
  ∀ s t : State, Inv s → step s = .next t → Inv t

/-- 00_scope.md R8, R9: CNT_W is the width of every tick counter: a state that meets the invariants, and the state after
every step from it, has each counter below 2^CNT_W, and so below 2^16 in a configuration with the reference width. That 32
bits hold the counter is log 11. -/
def Obligations.TickCountersKeepTheirWidth : Prop :=
  ∀ s t : State, Inv s → step s = .next t →
    ∀ j : Fin nSlots, s.slots[j].cnt.toNat < 2 ^ s.cfg.cntW ∧ t.slots[j].cnt.toNat < 2 ^ s.cfg.cntW

/-- 42_request_encoder.md R193, R195: every step keeps TXLOG a list of requests for polled indices. -/
def Obligations.EveryFrameSentIsARequestForAPolledIndex : Prop :=
  ∀ s t : State, SentOnlyRequests s → step s = .next t → SentOnlyRequests t ∧ s.txLog <+: t.txLog

/-- 20_memory.md R61: the read port's table; every other index is refused. -/
def Obligations.ReadPortFollowsTheFieldIndex : Prop :=
  ∀ s : State,
    (∀ k : Fin nCells, readField s (BitVec.ofNat 8 k.val) = .ok (.bits16 s.cell[k])) ∧
      readField s 0x09 = .ok (.bits16 s.hv) ∧ readField s 0x0A = .ok (.bits16 s.soc) ∧
      readField s 0x0B = .ok (.bits32 s.pdate) ∧ readField s 0x0C = .ok (.bits8 s.lastIdx) ∧
      (s.cfg.hasDiscardCtr = true → readField s 0x0D = .ok (.bits32 s.discardCtr)) ∧
      (s.cfg.hasDiscardCtr = false → readField s 0x0D = .error .noSuchField) ∧
      readField s 0x0E = .ok (.bit s.redraw) ∧
      ∀ x : Byte, 0x0E < x.toNat → readField s x = .error .noSuchField

/-- 30_encoding.md R91: the listing of an admitted word, encoded again, is the word; a word that fails a check has none. -/
def Obligations.ListingOfAWordEncodesToIt : Prop :=
  ∀ w : Sw, (PassesChecks w → ∃ l, listing w = some l ∧ assemble l = w) ∧ (¬ PassesChecks w → listing w = none)

/-- 30_encoding.md R91: the listing of an admitted word, printed as text and assembled, is the word, in every
configuration; no text is printed for another word. The number formats and blanks of the text are log 19's choice. -/
def Obligations.TextOfAListingAssemblesToItsWord : Prop :=
  ∀ (c : Config) (w : Sw),
    (PassesChecks w → ∃ text, listingText w = some text ∧ assembleText c text = some [w]) ∧
      (¬ PassesChecks w → listingText w = none)

/-- 30_encoding.md R93 and the CYCLE of R92: the worked encodings, and the words of CYCLE. -/
def Obligations.WorkedEncodingsAreAsWritten : Prop :=
  resp Config.reference 0x00 0x0F 0xA0 = .rx none none none none 0x72B ⟨0, 0, 0, 0, 0x0F, 0xA0, 0, 0⟩ ∧
    assemble (resp Config.reference 0x00 0x0F 0xA0) = 0x010008000000072B000000000FA00000 ∧
    assemble (.tick .ds) = 0x02100000000000000000000000000000 ∧
    assemble .loop = 0x03000000000000000000000000000000 ∧
    assemble (.treset 1 .ds) = 0x04110000000000000000000000000000 ∧
    assemble .ack = 0x05000000000000000000000000000000 ∧
    frameRecord (encodeRequest Config.reference 0x14) = 0x80000800000007230322D91400000000 ∧
    assembleAll (cycleLines Config.reference)
      = 0x03000000000000000000000000000000 ::
        ((List.replicate 10 [0x02100000000000000000000000000000, 0x03000000000000000000000000000000]).flatten
          ++ [0x03000000000000000000000000000000, 0x03000000000000000000000000000000])
end

