-- ==== Sys2Proof/Laws/Claims.lean ====
section
/-! SUPPORT. The model's tests of a word and of a configuration say what the statements' own spelling of 30_encoding.md R84
and 00_scope.md R9 says. -/

namespace Sys2Proof.Claims

/-- The checks of R84 pass exactly when the decoder's checks find none that fails. -/
theorem passesChecks_iff (w : Sw) : PassesChecks w ↔ failedCheck w = none := by
  have e1 : w.extractLsb 127 120 = swEc w := rfl
  have e2 : w.extractLsb 119 116 = swA w := rfl
  have e3 : w.extractLsb 115 112 = swB w := rfl
  have e4 : w.extractLsb 111 108 = swC w := rfl
  have e5 : w.extractLsb 107 104 = swDlc w := rfl
  have e6 : w.extractLsb 103 96 = swReserved w := rfl
  have e7 : w.extractLsb 95 64 = swId w := rfl
  have e8 : w.extractLsb 115 0 = w.extractLsb' 0 116 := rfl
  have e9 : w.extractLsb 119 0 = w.extractLsb' 0 120 := rfl
  have e10 : w.extractLsb 111 0 = w.extractLsb' 0 112 := rfl
  unfold PassesChecks failedCheck
  rw [e1, e2, e3, e4, e5, e6, e7, e8, e9, e10]
  by_cases h1 : swEc w = 0x01
  · rw [if_pos h1, h1]
    unfold failedRxCheck
    have hb : swB w = 0 ↔ (swB w).toNat = 0 := by
      constructor
      · intro h; rw [h]; rfl
      · intro h; exact BitVec.eq_of_toNat_eq h
    rw [if_congr hb rfl rfl]
    simp
    split_ifs <;> (simp_all; try omega)
  rw [if_neg h1]
  by_cases h2 : swEc w = 0x02
  · rw [if_pos h2, h2]; simp; split_ifs <;> simp_all
  rw [if_neg h2]
  by_cases h3 : swEc w = 0x03
  · rw [if_pos h3, h3]; simp
  rw [if_neg h3]
  by_cases h4 : swEc w = 0x04
  · rw [if_pos h4, h4]; simp; split_ifs <;> simp_all
  rw [if_neg h4]
  by_cases h5 : swEc w = 0x05
  · rw [if_pos h5, h5]; simp
  rw [if_neg h5]
  refine iff_of_false ?_ (by simp)
  rintro (⟨h, -⟩ | ⟨h, -⟩ | ⟨h, -⟩ | ⟨h, -⟩ | ⟨h, -⟩)
  exacts [h1 h, h2 h, h3 h, h4 h, h5 h]

/-- The constraints of R9 hold exactly when the model's test of them passes. -/
theorem r9Holds_iff (c : Config) : R9Holds c ↔ c.meetsR9 = true := by
  unfold Config.meetsR9 R9Holds
  have := c.respId.isLt
  have := c.reqId.isLt
  simp [and_assoc]
  simp_all

/-- A configuration the model runs, in the statements' spelling. -/
theorem legal_iff_r9 (c : Config) : c.legal = true ↔ R9Holds c ∧ c.numFields = 10 ∧ c.numCells = 9 := by
  rw [r9Holds_iff]; simp [Config.legal, Config.countsAgree]

end Sys2Proof.Claims
end

