-- ==== Sys2Proof/Laws/Encoding.lean ====
section
/-! SUPPORT. The fields of a word built from fields, a word rebuilt from its fields, and masking field by field
(30_encoding.md R83, R85). -/

namespace Sys2Proof

open BitVec (extractLsb'_append_eq_of_le extractLsb'_append_eq_of_add_le extractLsb'_eq_self
  extractLsb'_append_extractLsb'_eq_extractLsb')

section Fields

variable (ec : Byte) (a b c dlc : BitVec 4) (r : Byte) (id : Word) (data : BitVec 64)

@[simp] theorem swEc_mkSw : swEc (mkSw ec a b c dlc r id data) = ec := by
  simp (disch := omega) only [swEc, mkSw, extractLsb'_append_eq_of_le]
  exact extractLsb'_eq_self

@[simp] theorem swA_mkSw : swA (mkSw ec a b c dlc r id data) = a := by
  simp (disch := omega) only [swA, mkSw, extractLsb'_append_eq_of_le, extractLsb'_append_eq_of_add_le]
  exact extractLsb'_eq_self

@[simp] theorem swB_mkSw : swB (mkSw ec a b c dlc r id data) = b := by
  simp (disch := omega) only [swB, mkSw, extractLsb'_append_eq_of_le, extractLsb'_append_eq_of_add_le]
  exact extractLsb'_eq_self

@[simp] theorem swC_mkSw : swC (mkSw ec a b c dlc r id data) = c := by
  simp (disch := omega) only [swC, mkSw, extractLsb'_append_eq_of_le, extractLsb'_append_eq_of_add_le]
  exact extractLsb'_eq_self

@[simp] theorem swDlc_mkSw : swDlc (mkSw ec a b c dlc r id data) = dlc := by
  simp (disch := omega) only [swDlc, mkSw, extractLsb'_append_eq_of_le, extractLsb'_append_eq_of_add_le]
  exact extractLsb'_eq_self

@[simp] theorem swReserved_mkSw : swReserved (mkSw ec a b c dlc r id data) = r := by
  simp (disch := omega) only [swReserved, mkSw, extractLsb'_append_eq_of_le, extractLsb'_append_eq_of_add_le]
  exact extractLsb'_eq_self

@[simp] theorem swId_mkSw : swId (mkSw ec a b c dlc r id data) = id := by
  simp (disch := omega) only [swId, mkSw, extractLsb'_append_eq_of_le, extractLsb'_append_eq_of_add_le]
  exact extractLsb'_eq_self

@[simp] theorem swData_mkSw : swData (mkSw ec a b c dlc r id data) = data := by
  simp (disch := omega) only [swData, mkSw, extractLsb'_append_eq_of_add_le]
  exact extractLsb'_eq_self

end Fields

/-- A word is built from its own fields (R83). -/
theorem mkSw_fields (w : Sw) :
    mkSw (swEc w) (swA w) (swB w) (swC w) (swDlc w) (swReserved w) (swId w) (swData w) = w := by
  simp (disch := omega) only [mkSw, swEc, swA, swB, swC, swDlc, swReserved, swId, swData,
    extractLsb'_append_extractLsb'_eq_extractLsb']
  exact extractLsb'_eq_self

/-- Two words are equal when their fields are (R83). -/
theorem sw_ext {v w : Sw} (hec : swEc v = swEc w) (ha : swA v = swA w) (hb : swB v = swB w) (hc : swC v = swC w)
    (hd : swDlc v = swDlc w) (hr : swReserved v = swReserved w) (hi : swId v = swId w)
    (hx : swData v = swData w) : v = w := by
  rw [← mkSw_fields v, ← mkSw_fields w, hec, ha, hb, hc, hd, hr, hi, hx]

theorem mkSw_inj {ec ec' : Byte} {a a' b b' c c' d d' : BitVec 4} {r r' : Byte} {id id' : Word} {x x' : BitVec 64} :
    mkSw ec a b c d r id x = mkSw ec' a' b' c' d' r' id' x' ↔
      ec = ec' ∧ a = a' ∧ b = b' ∧ c = c' ∧ d = d' ∧ r = r' ∧ id = id' ∧ x = x' := by
  constructor
  · intro h
    exact ⟨by simpa using congrArg swEc h, by simpa using congrArg swA h, by simpa using congrArg swB h,
      by simpa using congrArg swC h, by simpa using congrArg swDlc h, by simpa using congrArg swReserved h,
      by simpa using congrArg swId h, by simpa using congrArg swData h⟩
  · rintro ⟨rfl, rfl, rfl, rfl, rfl, rfl, rfl, rfl⟩; rfl

/-- Masking acts field by field (R85). -/
theorem mkSw_and {ec ec' : Byte} {a a' b b' c c' d d' : BitVec 4} {r r' : Byte} {id id' : Word} {x x' : BitVec 64} :
    mkSw ec a b c d r id x &&& mkSw ec' a' b' c' d' r' id' x' =
      mkSw (ec &&& ec') (a &&& a') (b &&& b') (c &&& c') (d &&& d') (r &&& r') (id &&& id') (x &&& x') := by
  unfold mkSw
  iterate 7 refine BitVec.and_append.trans (congrArg (· ++ _) ?_)
  rfl

/-! ## Payload bytes -/

@[simp] theorem payloadOf_bits (p : Payload) : payloadOf p.bits = p := by
  obtain ⟨d0, d1, d2, d3, d4, d5, d6, d7⟩ := p
  simp (disch := omega) only [payloadOf, Payload.bits, extractLsb'_append_eq_of_le, extractLsb'_append_eq_of_add_le]
  simp only [Payload.mk.injEq]
  exact ⟨extractLsb'_eq_self, extractLsb'_eq_self, extractLsb'_eq_self, extractLsb'_eq_self,
    extractLsb'_eq_self, extractLsb'_eq_self, extractLsb'_eq_self, extractLsb'_eq_self⟩

@[simp] theorem bits_payloadOf (x : BitVec 64) : (payloadOf x).bits = x := by
  simp (disch := omega) only [Payload.bits, payloadOf, extractLsb'_append_extractLsb'_eq_extractLsb']
  exact extractLsb'_eq_self

theorem bits_inj {p q : Payload} : p.bits = q.bits ↔ p = q :=
  ⟨fun h => by simpa using congrArg payloadOf h, fun h => by rw [h]⟩

/-- Masking acts byte by byte. -/
theorem bits_and (p q : Payload) :
    p.bits &&& q.bits =
      Payload.bits ⟨p.d0 &&& q.d0, p.d1 &&& q.d1, p.d2 &&& q.d2, p.d3 &&& q.d3, p.d4 &&& q.d4, p.d5 &&& q.d5,
        p.d6 &&& q.d6, p.d7 &&& q.d7⟩ := by
  unfold Payload.bits
  iterate 7 refine BitVec.and_append.trans (congrArg (· ++ _) ?_)
  rfl

end Sys2Proof
end

