-- ==== Sys2Proof/Laws/State.lean ====
section
/-! SUPPORT. One lemma per field of State per register write of Machine/Ops.lean, so that no later proof unfolds a record
update. -/

namespace Sys2Proof.Machine.State

variable (s : State)

@[simp] theorem writeCell_cfg (k : Fin nCells) (v : HalfWord) : (s.writeCell k v).cfg = s.cfg := rfl
@[simp] theorem writeCell_stim (k : Fin nCells) (v : HalfWord) : (s.writeCell k v).stim = s.stim := rfl
@[simp] theorem writeCell_rxLog (k : Fin nCells) (v : HalfWord) : (s.writeCell k v).rxLog = s.rxLog := rfl
@[simp] theorem writeCell_cell (k : Fin nCells) (v : HalfWord) : (s.writeCell k v).cell = s.cell.set k v := rfl
@[simp] theorem writeCell_hv (k : Fin nCells) (v : HalfWord) : (s.writeCell k v).hv = s.hv := rfl
@[simp] theorem writeCell_soc (k : Fin nCells) (v : HalfWord) : (s.writeCell k v).soc = s.soc := rfl
@[simp] theorem writeCell_pdate (k : Fin nCells) (v : HalfWord) : (s.writeCell k v).pdate = s.pdate := rfl
@[simp] theorem writeCell_lastIdx (k : Fin nCells) (v : HalfWord) : (s.writeCell k v).lastIdx = s.lastIdx := rfl
@[simp] theorem writeCell_cursor (k : Fin nCells) (v : HalfWord) : (s.writeCell k v).cursor = s.cursor := rfl
@[simp] theorem writeCell_pdf (k : Fin nCells) (v : HalfWord) : (s.writeCell k v).pdf = s.pdf := rfl
@[simp] theorem writeCell_psm (k : Fin nCells) (v : HalfWord) : (s.writeCell k v).psm = s.psm := rfl
@[simp] theorem writeCell_redraw (k : Fin nCells) (v : HalfWord) : (s.writeCell k v).redraw = s.redraw := rfl
@[simp] theorem writeCell_tMs (k : Fin nCells) (v : HalfWord) : (s.writeCell k v).tMs = s.tMs := rfl
@[simp] theorem writeCell_tDs (k : Fin nCells) (v : HalfWord) : (s.writeCell k v).tDs = s.tDs := rfl
@[simp] theorem writeCell_lMs (k : Fin nCells) (v : HalfWord) : (s.writeCell k v).lMs = s.lMs := rfl
@[simp] theorem writeCell_lDs (k : Fin nCells) (v : HalfWord) : (s.writeCell k v).lDs = s.lDs := rfl
@[simp] theorem writeCell_slots (k : Fin nCells) (v : HalfWord) : (s.writeCell k v).slots = s.slots := rfl
@[simp] theorem writeCell_discardCtr (k : Fin nCells) (v : HalfWord) : (s.writeCell k v).discardCtr = s.discardCtr := rfl
@[simp] theorem writeCell_txLog (k : Fin nCells) (v : HalfWord) : (s.writeCell k v).txLog = s.txLog := rfl
@[simp] theorem writeCell_fault (k : Fin nCells) (v : HalfWord) : (s.writeCell k v).fault = s.fault := rfl

@[simp] theorem writeHv_cfg (v : HalfWord) : (s.writeHv v).cfg = s.cfg := rfl
@[simp] theorem writeHv_stim (v : HalfWord) : (s.writeHv v).stim = s.stim := rfl
@[simp] theorem writeHv_rxLog (v : HalfWord) : (s.writeHv v).rxLog = s.rxLog := rfl
@[simp] theorem writeHv_cell (v : HalfWord) : (s.writeHv v).cell = s.cell := rfl
@[simp] theorem writeHv_hv (v : HalfWord) : (s.writeHv v).hv = v := rfl
@[simp] theorem writeHv_soc (v : HalfWord) : (s.writeHv v).soc = s.soc := rfl
@[simp] theorem writeHv_pdate (v : HalfWord) : (s.writeHv v).pdate = s.pdate := rfl
@[simp] theorem writeHv_lastIdx (v : HalfWord) : (s.writeHv v).lastIdx = s.lastIdx := rfl
@[simp] theorem writeHv_cursor (v : HalfWord) : (s.writeHv v).cursor = s.cursor := rfl
@[simp] theorem writeHv_pdf (v : HalfWord) : (s.writeHv v).pdf = s.pdf := rfl
@[simp] theorem writeHv_psm (v : HalfWord) : (s.writeHv v).psm = s.psm := rfl
@[simp] theorem writeHv_redraw (v : HalfWord) : (s.writeHv v).redraw = s.redraw := rfl
@[simp] theorem writeHv_tMs (v : HalfWord) : (s.writeHv v).tMs = s.tMs := rfl
@[simp] theorem writeHv_tDs (v : HalfWord) : (s.writeHv v).tDs = s.tDs := rfl
@[simp] theorem writeHv_lMs (v : HalfWord) : (s.writeHv v).lMs = s.lMs := rfl
@[simp] theorem writeHv_lDs (v : HalfWord) : (s.writeHv v).lDs = s.lDs := rfl
@[simp] theorem writeHv_slots (v : HalfWord) : (s.writeHv v).slots = s.slots := rfl
@[simp] theorem writeHv_discardCtr (v : HalfWord) : (s.writeHv v).discardCtr = s.discardCtr := rfl
@[simp] theorem writeHv_txLog (v : HalfWord) : (s.writeHv v).txLog = s.txLog := rfl
@[simp] theorem writeHv_fault (v : HalfWord) : (s.writeHv v).fault = s.fault := rfl

@[simp] theorem writeSoc_cfg (v : HalfWord) : (s.writeSoc v).cfg = s.cfg := rfl
@[simp] theorem writeSoc_stim (v : HalfWord) : (s.writeSoc v).stim = s.stim := rfl
@[simp] theorem writeSoc_rxLog (v : HalfWord) : (s.writeSoc v).rxLog = s.rxLog := rfl
@[simp] theorem writeSoc_cell (v : HalfWord) : (s.writeSoc v).cell = s.cell := rfl
@[simp] theorem writeSoc_hv (v : HalfWord) : (s.writeSoc v).hv = s.hv := rfl
@[simp] theorem writeSoc_soc (v : HalfWord) : (s.writeSoc v).soc = v := rfl
@[simp] theorem writeSoc_pdate (v : HalfWord) : (s.writeSoc v).pdate = s.pdate := rfl
@[simp] theorem writeSoc_lastIdx (v : HalfWord) : (s.writeSoc v).lastIdx = s.lastIdx := rfl
@[simp] theorem writeSoc_cursor (v : HalfWord) : (s.writeSoc v).cursor = s.cursor := rfl
@[simp] theorem writeSoc_pdf (v : HalfWord) : (s.writeSoc v).pdf = s.pdf := rfl
@[simp] theorem writeSoc_psm (v : HalfWord) : (s.writeSoc v).psm = s.psm := rfl
@[simp] theorem writeSoc_redraw (v : HalfWord) : (s.writeSoc v).redraw = s.redraw := rfl
@[simp] theorem writeSoc_tMs (v : HalfWord) : (s.writeSoc v).tMs = s.tMs := rfl
@[simp] theorem writeSoc_tDs (v : HalfWord) : (s.writeSoc v).tDs = s.tDs := rfl
@[simp] theorem writeSoc_lMs (v : HalfWord) : (s.writeSoc v).lMs = s.lMs := rfl
@[simp] theorem writeSoc_lDs (v : HalfWord) : (s.writeSoc v).lDs = s.lDs := rfl
@[simp] theorem writeSoc_slots (v : HalfWord) : (s.writeSoc v).slots = s.slots := rfl
@[simp] theorem writeSoc_discardCtr (v : HalfWord) : (s.writeSoc v).discardCtr = s.discardCtr := rfl
@[simp] theorem writeSoc_txLog (v : HalfWord) : (s.writeSoc v).txLog = s.txLog := rfl
@[simp] theorem writeSoc_fault (v : HalfWord) : (s.writeSoc v).fault = s.fault := rfl

@[simp] theorem writePdate_cfg (v : Word) : (s.writePdate v).cfg = s.cfg := rfl
@[simp] theorem writePdate_stim (v : Word) : (s.writePdate v).stim = s.stim := rfl
@[simp] theorem writePdate_rxLog (v : Word) : (s.writePdate v).rxLog = s.rxLog := rfl
@[simp] theorem writePdate_cell (v : Word) : (s.writePdate v).cell = s.cell := rfl
@[simp] theorem writePdate_hv (v : Word) : (s.writePdate v).hv = s.hv := rfl
@[simp] theorem writePdate_soc (v : Word) : (s.writePdate v).soc = s.soc := rfl
@[simp] theorem writePdate_pdate (v : Word) : (s.writePdate v).pdate = v := rfl
@[simp] theorem writePdate_lastIdx (v : Word) : (s.writePdate v).lastIdx = s.lastIdx := rfl
@[simp] theorem writePdate_cursor (v : Word) : (s.writePdate v).cursor = s.cursor := rfl
@[simp] theorem writePdate_pdf (v : Word) : (s.writePdate v).pdf = s.pdf := rfl
@[simp] theorem writePdate_psm (v : Word) : (s.writePdate v).psm = s.psm := rfl
@[simp] theorem writePdate_redraw (v : Word) : (s.writePdate v).redraw = s.redraw := rfl
@[simp] theorem writePdate_tMs (v : Word) : (s.writePdate v).tMs = s.tMs := rfl
@[simp] theorem writePdate_tDs (v : Word) : (s.writePdate v).tDs = s.tDs := rfl
@[simp] theorem writePdate_lMs (v : Word) : (s.writePdate v).lMs = s.lMs := rfl
@[simp] theorem writePdate_lDs (v : Word) : (s.writePdate v).lDs = s.lDs := rfl
@[simp] theorem writePdate_slots (v : Word) : (s.writePdate v).slots = s.slots := rfl
@[simp] theorem writePdate_discardCtr (v : Word) : (s.writePdate v).discardCtr = s.discardCtr := rfl
@[simp] theorem writePdate_txLog (v : Word) : (s.writePdate v).txLog = s.txLog := rfl
@[simp] theorem writePdate_fault (v : Word) : (s.writePdate v).fault = s.fault := rfl

@[simp] theorem writeLastIdx_cfg (v : Byte) : (s.writeLastIdx v).cfg = s.cfg := rfl
@[simp] theorem writeLastIdx_stim (v : Byte) : (s.writeLastIdx v).stim = s.stim := rfl
@[simp] theorem writeLastIdx_rxLog (v : Byte) : (s.writeLastIdx v).rxLog = s.rxLog := rfl
@[simp] theorem writeLastIdx_cell (v : Byte) : (s.writeLastIdx v).cell = s.cell := rfl
@[simp] theorem writeLastIdx_hv (v : Byte) : (s.writeLastIdx v).hv = s.hv := rfl
@[simp] theorem writeLastIdx_soc (v : Byte) : (s.writeLastIdx v).soc = s.soc := rfl
@[simp] theorem writeLastIdx_pdate (v : Byte) : (s.writeLastIdx v).pdate = s.pdate := rfl
@[simp] theorem writeLastIdx_lastIdx (v : Byte) : (s.writeLastIdx v).lastIdx = v := rfl
@[simp] theorem writeLastIdx_cursor (v : Byte) : (s.writeLastIdx v).cursor = s.cursor := rfl
@[simp] theorem writeLastIdx_pdf (v : Byte) : (s.writeLastIdx v).pdf = s.pdf := rfl
@[simp] theorem writeLastIdx_psm (v : Byte) : (s.writeLastIdx v).psm = s.psm := rfl
@[simp] theorem writeLastIdx_redraw (v : Byte) : (s.writeLastIdx v).redraw = s.redraw := rfl
@[simp] theorem writeLastIdx_tMs (v : Byte) : (s.writeLastIdx v).tMs = s.tMs := rfl
@[simp] theorem writeLastIdx_tDs (v : Byte) : (s.writeLastIdx v).tDs = s.tDs := rfl
@[simp] theorem writeLastIdx_lMs (v : Byte) : (s.writeLastIdx v).lMs = s.lMs := rfl
@[simp] theorem writeLastIdx_lDs (v : Byte) : (s.writeLastIdx v).lDs = s.lDs := rfl
@[simp] theorem writeLastIdx_slots (v : Byte) : (s.writeLastIdx v).slots = s.slots := rfl
@[simp] theorem writeLastIdx_discardCtr (v : Byte) : (s.writeLastIdx v).discardCtr = s.discardCtr := rfl
@[simp] theorem writeLastIdx_txLog (v : Byte) : (s.writeLastIdx v).txLog = s.txLog := rfl
@[simp] theorem writeLastIdx_fault (v : Byte) : (s.writeLastIdx v).fault = s.fault := rfl

@[simp] theorem writeDiscardCtr_cfg (v : Word) : (s.writeDiscardCtr v).cfg = s.cfg := rfl
@[simp] theorem writeDiscardCtr_stim (v : Word) : (s.writeDiscardCtr v).stim = s.stim := rfl
@[simp] theorem writeDiscardCtr_rxLog (v : Word) : (s.writeDiscardCtr v).rxLog = s.rxLog := rfl
@[simp] theorem writeDiscardCtr_cell (v : Word) : (s.writeDiscardCtr v).cell = s.cell := rfl
@[simp] theorem writeDiscardCtr_hv (v : Word) : (s.writeDiscardCtr v).hv = s.hv := rfl
@[simp] theorem writeDiscardCtr_soc (v : Word) : (s.writeDiscardCtr v).soc = s.soc := rfl
@[simp] theorem writeDiscardCtr_pdate (v : Word) : (s.writeDiscardCtr v).pdate = s.pdate := rfl
@[simp] theorem writeDiscardCtr_lastIdx (v : Word) : (s.writeDiscardCtr v).lastIdx = s.lastIdx := rfl
@[simp] theorem writeDiscardCtr_cursor (v : Word) : (s.writeDiscardCtr v).cursor = s.cursor := rfl
@[simp] theorem writeDiscardCtr_pdf (v : Word) : (s.writeDiscardCtr v).pdf = s.pdf := rfl
@[simp] theorem writeDiscardCtr_psm (v : Word) : (s.writeDiscardCtr v).psm = s.psm := rfl
@[simp] theorem writeDiscardCtr_redraw (v : Word) : (s.writeDiscardCtr v).redraw = s.redraw := rfl
@[simp] theorem writeDiscardCtr_tMs (v : Word) : (s.writeDiscardCtr v).tMs = s.tMs := rfl
@[simp] theorem writeDiscardCtr_tDs (v : Word) : (s.writeDiscardCtr v).tDs = s.tDs := rfl
@[simp] theorem writeDiscardCtr_lMs (v : Word) : (s.writeDiscardCtr v).lMs = s.lMs := rfl
@[simp] theorem writeDiscardCtr_lDs (v : Word) : (s.writeDiscardCtr v).lDs = s.lDs := rfl
@[simp] theorem writeDiscardCtr_slots (v : Word) : (s.writeDiscardCtr v).slots = s.slots := rfl
@[simp] theorem writeDiscardCtr_discardCtr (v : Word) : (s.writeDiscardCtr v).discardCtr = v := rfl
@[simp] theorem writeDiscardCtr_txLog (v : Word) : (s.writeDiscardCtr v).txLog = s.txLog := rfl
@[simp] theorem writeDiscardCtr_fault (v : Word) : (s.writeDiscardCtr v).fault = s.fault := rfl

@[simp] theorem writeCursor_cfg (v : BitVec 4) : (s.writeCursor v).cfg = s.cfg := rfl
@[simp] theorem writeCursor_stim (v : BitVec 4) : (s.writeCursor v).stim = s.stim := rfl
@[simp] theorem writeCursor_rxLog (v : BitVec 4) : (s.writeCursor v).rxLog = s.rxLog := rfl
@[simp] theorem writeCursor_cell (v : BitVec 4) : (s.writeCursor v).cell = s.cell := rfl
@[simp] theorem writeCursor_hv (v : BitVec 4) : (s.writeCursor v).hv = s.hv := rfl
@[simp] theorem writeCursor_soc (v : BitVec 4) : (s.writeCursor v).soc = s.soc := rfl
@[simp] theorem writeCursor_pdate (v : BitVec 4) : (s.writeCursor v).pdate = s.pdate := rfl
@[simp] theorem writeCursor_lastIdx (v : BitVec 4) : (s.writeCursor v).lastIdx = s.lastIdx := rfl
@[simp] theorem writeCursor_cursor (v : BitVec 4) : (s.writeCursor v).cursor = v := rfl
@[simp] theorem writeCursor_pdf (v : BitVec 4) : (s.writeCursor v).pdf = s.pdf := rfl
@[simp] theorem writeCursor_psm (v : BitVec 4) : (s.writeCursor v).psm = s.psm := rfl
@[simp] theorem writeCursor_redraw (v : BitVec 4) : (s.writeCursor v).redraw = s.redraw := rfl
@[simp] theorem writeCursor_tMs (v : BitVec 4) : (s.writeCursor v).tMs = s.tMs := rfl
@[simp] theorem writeCursor_tDs (v : BitVec 4) : (s.writeCursor v).tDs = s.tDs := rfl
@[simp] theorem writeCursor_lMs (v : BitVec 4) : (s.writeCursor v).lMs = s.lMs := rfl
@[simp] theorem writeCursor_lDs (v : BitVec 4) : (s.writeCursor v).lDs = s.lDs := rfl
@[simp] theorem writeCursor_slots (v : BitVec 4) : (s.writeCursor v).slots = s.slots := rfl
@[simp] theorem writeCursor_discardCtr (v : BitVec 4) : (s.writeCursor v).discardCtr = s.discardCtr := rfl
@[simp] theorem writeCursor_txLog (v : BitVec 4) : (s.writeCursor v).txLog = s.txLog := rfl
@[simp] theorem writeCursor_fault (v : BitVec 4) : (s.writeCursor v).fault = s.fault := rfl

@[simp] theorem writePdf_cfg (v : Bool) : (s.writePdf v).cfg = s.cfg := rfl
@[simp] theorem writePdf_stim (v : Bool) : (s.writePdf v).stim = s.stim := rfl
@[simp] theorem writePdf_rxLog (v : Bool) : (s.writePdf v).rxLog = s.rxLog := rfl
@[simp] theorem writePdf_cell (v : Bool) : (s.writePdf v).cell = s.cell := rfl
@[simp] theorem writePdf_hv (v : Bool) : (s.writePdf v).hv = s.hv := rfl
@[simp] theorem writePdf_soc (v : Bool) : (s.writePdf v).soc = s.soc := rfl
@[simp] theorem writePdf_pdate (v : Bool) : (s.writePdf v).pdate = s.pdate := rfl
@[simp] theorem writePdf_lastIdx (v : Bool) : (s.writePdf v).lastIdx = s.lastIdx := rfl
@[simp] theorem writePdf_cursor (v : Bool) : (s.writePdf v).cursor = s.cursor := rfl
@[simp] theorem writePdf_pdf (v : Bool) : (s.writePdf v).pdf = v := rfl
@[simp] theorem writePdf_psm (v : Bool) : (s.writePdf v).psm = s.psm := rfl
@[simp] theorem writePdf_redraw (v : Bool) : (s.writePdf v).redraw = s.redraw := rfl
@[simp] theorem writePdf_tMs (v : Bool) : (s.writePdf v).tMs = s.tMs := rfl
@[simp] theorem writePdf_tDs (v : Bool) : (s.writePdf v).tDs = s.tDs := rfl
@[simp] theorem writePdf_lMs (v : Bool) : (s.writePdf v).lMs = s.lMs := rfl
@[simp] theorem writePdf_lDs (v : Bool) : (s.writePdf v).lDs = s.lDs := rfl
@[simp] theorem writePdf_slots (v : Bool) : (s.writePdf v).slots = s.slots := rfl
@[simp] theorem writePdf_discardCtr (v : Bool) : (s.writePdf v).discardCtr = s.discardCtr := rfl
@[simp] theorem writePdf_txLog (v : Bool) : (s.writePdf v).txLog = s.txLog := rfl
@[simp] theorem writePdf_fault (v : Bool) : (s.writePdf v).fault = s.fault := rfl

@[simp] theorem writePsm_cfg (v : Psm) : (s.writePsm v).cfg = s.cfg := rfl
@[simp] theorem writePsm_stim (v : Psm) : (s.writePsm v).stim = s.stim := rfl
@[simp] theorem writePsm_rxLog (v : Psm) : (s.writePsm v).rxLog = s.rxLog := rfl
@[simp] theorem writePsm_cell (v : Psm) : (s.writePsm v).cell = s.cell := rfl
@[simp] theorem writePsm_hv (v : Psm) : (s.writePsm v).hv = s.hv := rfl
@[simp] theorem writePsm_soc (v : Psm) : (s.writePsm v).soc = s.soc := rfl
@[simp] theorem writePsm_pdate (v : Psm) : (s.writePsm v).pdate = s.pdate := rfl
@[simp] theorem writePsm_lastIdx (v : Psm) : (s.writePsm v).lastIdx = s.lastIdx := rfl
@[simp] theorem writePsm_cursor (v : Psm) : (s.writePsm v).cursor = s.cursor := rfl
@[simp] theorem writePsm_pdf (v : Psm) : (s.writePsm v).pdf = s.pdf := rfl
@[simp] theorem writePsm_psm (v : Psm) : (s.writePsm v).psm = v := rfl
@[simp] theorem writePsm_redraw (v : Psm) : (s.writePsm v).redraw = s.redraw := rfl
@[simp] theorem writePsm_tMs (v : Psm) : (s.writePsm v).tMs = s.tMs := rfl
@[simp] theorem writePsm_tDs (v : Psm) : (s.writePsm v).tDs = s.tDs := rfl
@[simp] theorem writePsm_lMs (v : Psm) : (s.writePsm v).lMs = s.lMs := rfl
@[simp] theorem writePsm_lDs (v : Psm) : (s.writePsm v).lDs = s.lDs := rfl
@[simp] theorem writePsm_slots (v : Psm) : (s.writePsm v).slots = s.slots := rfl
@[simp] theorem writePsm_discardCtr (v : Psm) : (s.writePsm v).discardCtr = s.discardCtr := rfl
@[simp] theorem writePsm_txLog (v : Psm) : (s.writePsm v).txLog = s.txLog := rfl
@[simp] theorem writePsm_fault (v : Psm) : (s.writePsm v).fault = s.fault := rfl

@[simp] theorem writeRedraw_cfg (v : Bool) : (s.writeRedraw v).cfg = s.cfg := rfl
@[simp] theorem writeRedraw_stim (v : Bool) : (s.writeRedraw v).stim = s.stim := rfl
@[simp] theorem writeRedraw_rxLog (v : Bool) : (s.writeRedraw v).rxLog = s.rxLog := rfl
@[simp] theorem writeRedraw_cell (v : Bool) : (s.writeRedraw v).cell = s.cell := rfl
@[simp] theorem writeRedraw_hv (v : Bool) : (s.writeRedraw v).hv = s.hv := rfl
@[simp] theorem writeRedraw_soc (v : Bool) : (s.writeRedraw v).soc = s.soc := rfl
@[simp] theorem writeRedraw_pdate (v : Bool) : (s.writeRedraw v).pdate = s.pdate := rfl
@[simp] theorem writeRedraw_lastIdx (v : Bool) : (s.writeRedraw v).lastIdx = s.lastIdx := rfl
@[simp] theorem writeRedraw_cursor (v : Bool) : (s.writeRedraw v).cursor = s.cursor := rfl
@[simp] theorem writeRedraw_pdf (v : Bool) : (s.writeRedraw v).pdf = s.pdf := rfl
@[simp] theorem writeRedraw_psm (v : Bool) : (s.writeRedraw v).psm = s.psm := rfl
@[simp] theorem writeRedraw_redraw (v : Bool) : (s.writeRedraw v).redraw = v := rfl
@[simp] theorem writeRedraw_tMs (v : Bool) : (s.writeRedraw v).tMs = s.tMs := rfl
@[simp] theorem writeRedraw_tDs (v : Bool) : (s.writeRedraw v).tDs = s.tDs := rfl
@[simp] theorem writeRedraw_lMs (v : Bool) : (s.writeRedraw v).lMs = s.lMs := rfl
@[simp] theorem writeRedraw_lDs (v : Bool) : (s.writeRedraw v).lDs = s.lDs := rfl
@[simp] theorem writeRedraw_slots (v : Bool) : (s.writeRedraw v).slots = s.slots := rfl
@[simp] theorem writeRedraw_discardCtr (v : Bool) : (s.writeRedraw v).discardCtr = s.discardCtr := rfl
@[simp] theorem writeRedraw_txLog (v : Bool) : (s.writeRedraw v).txLog = s.txLog := rfl
@[simp] theorem writeRedraw_fault (v : Bool) : (s.writeRedraw v).fault = s.fault := rfl

@[simp] theorem writeTMs_cfg (v : Bool) : (s.writeTMs v).cfg = s.cfg := rfl
@[simp] theorem writeTMs_stim (v : Bool) : (s.writeTMs v).stim = s.stim := rfl
@[simp] theorem writeTMs_rxLog (v : Bool) : (s.writeTMs v).rxLog = s.rxLog := rfl
@[simp] theorem writeTMs_cell (v : Bool) : (s.writeTMs v).cell = s.cell := rfl
@[simp] theorem writeTMs_hv (v : Bool) : (s.writeTMs v).hv = s.hv := rfl
@[simp] theorem writeTMs_soc (v : Bool) : (s.writeTMs v).soc = s.soc := rfl
@[simp] theorem writeTMs_pdate (v : Bool) : (s.writeTMs v).pdate = s.pdate := rfl
@[simp] theorem writeTMs_lastIdx (v : Bool) : (s.writeTMs v).lastIdx = s.lastIdx := rfl
@[simp] theorem writeTMs_cursor (v : Bool) : (s.writeTMs v).cursor = s.cursor := rfl
@[simp] theorem writeTMs_pdf (v : Bool) : (s.writeTMs v).pdf = s.pdf := rfl
@[simp] theorem writeTMs_psm (v : Bool) : (s.writeTMs v).psm = s.psm := rfl
@[simp] theorem writeTMs_redraw (v : Bool) : (s.writeTMs v).redraw = s.redraw := rfl
@[simp] theorem writeTMs_tMs (v : Bool) : (s.writeTMs v).tMs = v := rfl
@[simp] theorem writeTMs_tDs (v : Bool) : (s.writeTMs v).tDs = s.tDs := rfl
@[simp] theorem writeTMs_lMs (v : Bool) : (s.writeTMs v).lMs = s.lMs := rfl
@[simp] theorem writeTMs_lDs (v : Bool) : (s.writeTMs v).lDs = s.lDs := rfl
@[simp] theorem writeTMs_slots (v : Bool) : (s.writeTMs v).slots = s.slots := rfl
@[simp] theorem writeTMs_discardCtr (v : Bool) : (s.writeTMs v).discardCtr = s.discardCtr := rfl
@[simp] theorem writeTMs_txLog (v : Bool) : (s.writeTMs v).txLog = s.txLog := rfl
@[simp] theorem writeTMs_fault (v : Bool) : (s.writeTMs v).fault = s.fault := rfl

@[simp] theorem writeTDs_cfg (v : Bool) : (s.writeTDs v).cfg = s.cfg := rfl
@[simp] theorem writeTDs_stim (v : Bool) : (s.writeTDs v).stim = s.stim := rfl
@[simp] theorem writeTDs_rxLog (v : Bool) : (s.writeTDs v).rxLog = s.rxLog := rfl
@[simp] theorem writeTDs_cell (v : Bool) : (s.writeTDs v).cell = s.cell := rfl
@[simp] theorem writeTDs_hv (v : Bool) : (s.writeTDs v).hv = s.hv := rfl
@[simp] theorem writeTDs_soc (v : Bool) : (s.writeTDs v).soc = s.soc := rfl
@[simp] theorem writeTDs_pdate (v : Bool) : (s.writeTDs v).pdate = s.pdate := rfl
@[simp] theorem writeTDs_lastIdx (v : Bool) : (s.writeTDs v).lastIdx = s.lastIdx := rfl
@[simp] theorem writeTDs_cursor (v : Bool) : (s.writeTDs v).cursor = s.cursor := rfl
@[simp] theorem writeTDs_pdf (v : Bool) : (s.writeTDs v).pdf = s.pdf := rfl
@[simp] theorem writeTDs_psm (v : Bool) : (s.writeTDs v).psm = s.psm := rfl
@[simp] theorem writeTDs_redraw (v : Bool) : (s.writeTDs v).redraw = s.redraw := rfl
@[simp] theorem writeTDs_tMs (v : Bool) : (s.writeTDs v).tMs = s.tMs := rfl
@[simp] theorem writeTDs_tDs (v : Bool) : (s.writeTDs v).tDs = v := rfl
@[simp] theorem writeTDs_lMs (v : Bool) : (s.writeTDs v).lMs = s.lMs := rfl
@[simp] theorem writeTDs_lDs (v : Bool) : (s.writeTDs v).lDs = s.lDs := rfl
@[simp] theorem writeTDs_slots (v : Bool) : (s.writeTDs v).slots = s.slots := rfl
@[simp] theorem writeTDs_discardCtr (v : Bool) : (s.writeTDs v).discardCtr = s.discardCtr := rfl
@[simp] theorem writeTDs_txLog (v : Bool) : (s.writeTDs v).txLog = s.txLog := rfl
@[simp] theorem writeTDs_fault (v : Bool) : (s.writeTDs v).fault = s.fault := rfl

@[simp] theorem writeLMs_cfg (v : Bool) : (s.writeLMs v).cfg = s.cfg := rfl
@[simp] theorem writeLMs_stim (v : Bool) : (s.writeLMs v).stim = s.stim := rfl
@[simp] theorem writeLMs_rxLog (v : Bool) : (s.writeLMs v).rxLog = s.rxLog := rfl
@[simp] theorem writeLMs_cell (v : Bool) : (s.writeLMs v).cell = s.cell := rfl
@[simp] theorem writeLMs_hv (v : Bool) : (s.writeLMs v).hv = s.hv := rfl
@[simp] theorem writeLMs_soc (v : Bool) : (s.writeLMs v).soc = s.soc := rfl
@[simp] theorem writeLMs_pdate (v : Bool) : (s.writeLMs v).pdate = s.pdate := rfl
@[simp] theorem writeLMs_lastIdx (v : Bool) : (s.writeLMs v).lastIdx = s.lastIdx := rfl
@[simp] theorem writeLMs_cursor (v : Bool) : (s.writeLMs v).cursor = s.cursor := rfl
@[simp] theorem writeLMs_pdf (v : Bool) : (s.writeLMs v).pdf = s.pdf := rfl
@[simp] theorem writeLMs_psm (v : Bool) : (s.writeLMs v).psm = s.psm := rfl
@[simp] theorem writeLMs_redraw (v : Bool) : (s.writeLMs v).redraw = s.redraw := rfl
@[simp] theorem writeLMs_tMs (v : Bool) : (s.writeLMs v).tMs = s.tMs := rfl
@[simp] theorem writeLMs_tDs (v : Bool) : (s.writeLMs v).tDs = s.tDs := rfl
@[simp] theorem writeLMs_lMs (v : Bool) : (s.writeLMs v).lMs = v := rfl
@[simp] theorem writeLMs_lDs (v : Bool) : (s.writeLMs v).lDs = s.lDs := rfl
@[simp] theorem writeLMs_slots (v : Bool) : (s.writeLMs v).slots = s.slots := rfl
@[simp] theorem writeLMs_discardCtr (v : Bool) : (s.writeLMs v).discardCtr = s.discardCtr := rfl
@[simp] theorem writeLMs_txLog (v : Bool) : (s.writeLMs v).txLog = s.txLog := rfl
@[simp] theorem writeLMs_fault (v : Bool) : (s.writeLMs v).fault = s.fault := rfl

@[simp] theorem writeLDs_cfg (v : Bool) : (s.writeLDs v).cfg = s.cfg := rfl
@[simp] theorem writeLDs_stim (v : Bool) : (s.writeLDs v).stim = s.stim := rfl
@[simp] theorem writeLDs_rxLog (v : Bool) : (s.writeLDs v).rxLog = s.rxLog := rfl
@[simp] theorem writeLDs_cell (v : Bool) : (s.writeLDs v).cell = s.cell := rfl
@[simp] theorem writeLDs_hv (v : Bool) : (s.writeLDs v).hv = s.hv := rfl
@[simp] theorem writeLDs_soc (v : Bool) : (s.writeLDs v).soc = s.soc := rfl
@[simp] theorem writeLDs_pdate (v : Bool) : (s.writeLDs v).pdate = s.pdate := rfl
@[simp] theorem writeLDs_lastIdx (v : Bool) : (s.writeLDs v).lastIdx = s.lastIdx := rfl
@[simp] theorem writeLDs_cursor (v : Bool) : (s.writeLDs v).cursor = s.cursor := rfl
@[simp] theorem writeLDs_pdf (v : Bool) : (s.writeLDs v).pdf = s.pdf := rfl
@[simp] theorem writeLDs_psm (v : Bool) : (s.writeLDs v).psm = s.psm := rfl
@[simp] theorem writeLDs_redraw (v : Bool) : (s.writeLDs v).redraw = s.redraw := rfl
@[simp] theorem writeLDs_tMs (v : Bool) : (s.writeLDs v).tMs = s.tMs := rfl
@[simp] theorem writeLDs_tDs (v : Bool) : (s.writeLDs v).tDs = s.tDs := rfl
@[simp] theorem writeLDs_lMs (v : Bool) : (s.writeLDs v).lMs = s.lMs := rfl
@[simp] theorem writeLDs_lDs (v : Bool) : (s.writeLDs v).lDs = v := rfl
@[simp] theorem writeLDs_slots (v : Bool) : (s.writeLDs v).slots = s.slots := rfl
@[simp] theorem writeLDs_discardCtr (v : Bool) : (s.writeLDs v).discardCtr = s.discardCtr := rfl
@[simp] theorem writeLDs_txLog (v : Bool) : (s.writeLDs v).txLog = s.txLog := rfl
@[simp] theorem writeLDs_fault (v : Bool) : (s.writeLDs v).fault = s.fault := rfl

@[simp] theorem writeSlots_cfg (v : Vector TimerSlot nSlots) : (s.writeSlots v).cfg = s.cfg := rfl
@[simp] theorem writeSlots_stim (v : Vector TimerSlot nSlots) : (s.writeSlots v).stim = s.stim := rfl
@[simp] theorem writeSlots_rxLog (v : Vector TimerSlot nSlots) : (s.writeSlots v).rxLog = s.rxLog := rfl
@[simp] theorem writeSlots_cell (v : Vector TimerSlot nSlots) : (s.writeSlots v).cell = s.cell := rfl
@[simp] theorem writeSlots_hv (v : Vector TimerSlot nSlots) : (s.writeSlots v).hv = s.hv := rfl
@[simp] theorem writeSlots_soc (v : Vector TimerSlot nSlots) : (s.writeSlots v).soc = s.soc := rfl
@[simp] theorem writeSlots_pdate (v : Vector TimerSlot nSlots) : (s.writeSlots v).pdate = s.pdate := rfl
@[simp] theorem writeSlots_lastIdx (v : Vector TimerSlot nSlots) : (s.writeSlots v).lastIdx = s.lastIdx := rfl
@[simp] theorem writeSlots_cursor (v : Vector TimerSlot nSlots) : (s.writeSlots v).cursor = s.cursor := rfl
@[simp] theorem writeSlots_pdf (v : Vector TimerSlot nSlots) : (s.writeSlots v).pdf = s.pdf := rfl
@[simp] theorem writeSlots_psm (v : Vector TimerSlot nSlots) : (s.writeSlots v).psm = s.psm := rfl
@[simp] theorem writeSlots_redraw (v : Vector TimerSlot nSlots) : (s.writeSlots v).redraw = s.redraw := rfl
@[simp] theorem writeSlots_tMs (v : Vector TimerSlot nSlots) : (s.writeSlots v).tMs = s.tMs := rfl
@[simp] theorem writeSlots_tDs (v : Vector TimerSlot nSlots) : (s.writeSlots v).tDs = s.tDs := rfl
@[simp] theorem writeSlots_lMs (v : Vector TimerSlot nSlots) : (s.writeSlots v).lMs = s.lMs := rfl
@[simp] theorem writeSlots_lDs (v : Vector TimerSlot nSlots) : (s.writeSlots v).lDs = s.lDs := rfl
@[simp] theorem writeSlots_slots (v : Vector TimerSlot nSlots) : (s.writeSlots v).slots = v := rfl
@[simp] theorem writeSlots_discardCtr (v : Vector TimerSlot nSlots) : (s.writeSlots v).discardCtr = s.discardCtr := rfl
@[simp] theorem writeSlots_txLog (v : Vector TimerSlot nSlots) : (s.writeSlots v).txLog = s.txLog := rfl
@[simp] theorem writeSlots_fault (v : Vector TimerSlot nSlots) : (s.writeSlots v).fault = s.fault := rfl

@[simp] theorem markFault_cfg (v : FaultMark) : (s.markFault v).cfg = s.cfg := rfl
@[simp] theorem markFault_stim (v : FaultMark) : (s.markFault v).stim = s.stim := rfl
@[simp] theorem markFault_rxLog (v : FaultMark) : (s.markFault v).rxLog = s.rxLog := rfl
@[simp] theorem markFault_cell (v : FaultMark) : (s.markFault v).cell = s.cell := rfl
@[simp] theorem markFault_hv (v : FaultMark) : (s.markFault v).hv = s.hv := rfl
@[simp] theorem markFault_soc (v : FaultMark) : (s.markFault v).soc = s.soc := rfl
@[simp] theorem markFault_pdate (v : FaultMark) : (s.markFault v).pdate = s.pdate := rfl
@[simp] theorem markFault_lastIdx (v : FaultMark) : (s.markFault v).lastIdx = s.lastIdx := rfl
@[simp] theorem markFault_cursor (v : FaultMark) : (s.markFault v).cursor = s.cursor := rfl
@[simp] theorem markFault_pdf (v : FaultMark) : (s.markFault v).pdf = s.pdf := rfl
@[simp] theorem markFault_psm (v : FaultMark) : (s.markFault v).psm = s.psm := rfl
@[simp] theorem markFault_redraw (v : FaultMark) : (s.markFault v).redraw = s.redraw := rfl
@[simp] theorem markFault_tMs (v : FaultMark) : (s.markFault v).tMs = s.tMs := rfl
@[simp] theorem markFault_tDs (v : FaultMark) : (s.markFault v).tDs = s.tDs := rfl
@[simp] theorem markFault_lMs (v : FaultMark) : (s.markFault v).lMs = s.lMs := rfl
@[simp] theorem markFault_lDs (v : FaultMark) : (s.markFault v).lDs = s.lDs := rfl
@[simp] theorem markFault_slots (v : FaultMark) : (s.markFault v).slots = s.slots := rfl
@[simp] theorem markFault_discardCtr (v : FaultMark) : (s.markFault v).discardCtr = s.discardCtr := rfl
@[simp] theorem markFault_txLog (v : FaultMark) : (s.markFault v).txLog = s.txLog := rfl
@[simp] theorem markFault_fault (v : FaultMark) : (s.markFault v).fault = v := rfl

@[simp] theorem emitTx_cfg (v : Frame) : (s.emitTx v).cfg = s.cfg := rfl
@[simp] theorem emitTx_stim (v : Frame) : (s.emitTx v).stim = s.stim := rfl
@[simp] theorem emitTx_rxLog (v : Frame) : (s.emitTx v).rxLog = s.rxLog := rfl
@[simp] theorem emitTx_cell (v : Frame) : (s.emitTx v).cell = s.cell := rfl
@[simp] theorem emitTx_hv (v : Frame) : (s.emitTx v).hv = s.hv := rfl
@[simp] theorem emitTx_soc (v : Frame) : (s.emitTx v).soc = s.soc := rfl
@[simp] theorem emitTx_pdate (v : Frame) : (s.emitTx v).pdate = s.pdate := rfl
@[simp] theorem emitTx_lastIdx (v : Frame) : (s.emitTx v).lastIdx = s.lastIdx := rfl
@[simp] theorem emitTx_cursor (v : Frame) : (s.emitTx v).cursor = s.cursor := rfl
@[simp] theorem emitTx_pdf (v : Frame) : (s.emitTx v).pdf = s.pdf := rfl
@[simp] theorem emitTx_psm (v : Frame) : (s.emitTx v).psm = s.psm := rfl
@[simp] theorem emitTx_redraw (v : Frame) : (s.emitTx v).redraw = s.redraw := rfl
@[simp] theorem emitTx_tMs (v : Frame) : (s.emitTx v).tMs = s.tMs := rfl
@[simp] theorem emitTx_tDs (v : Frame) : (s.emitTx v).tDs = s.tDs := rfl
@[simp] theorem emitTx_lMs (v : Frame) : (s.emitTx v).lMs = s.lMs := rfl
@[simp] theorem emitTx_lDs (v : Frame) : (s.emitTx v).lDs = s.lDs := rfl
@[simp] theorem emitTx_slots (v : Frame) : (s.emitTx v).slots = s.slots := rfl
@[simp] theorem emitTx_discardCtr (v : Frame) : (s.emitTx v).discardCtr = s.discardCtr := rfl
@[simp] theorem emitTx_txLog (v : Frame) : (s.emitTx v).txLog = s.txLog ++ [v] := rfl
@[simp] theorem emitTx_fault (v : Frame) : (s.emitTx v).fault = s.fault := rfl

@[simp] theorem logOutcome_cfg (v : RxOutcome) : (s.logOutcome v).cfg = s.cfg := rfl
@[simp] theorem logOutcome_stim (v : RxOutcome) : (s.logOutcome v).stim = s.stim := rfl
@[simp] theorem logOutcome_rxLog (v : RxOutcome) : (s.logOutcome v).rxLog = s.rxLog ++ [v] := rfl
@[simp] theorem logOutcome_cell (v : RxOutcome) : (s.logOutcome v).cell = s.cell := rfl
@[simp] theorem logOutcome_hv (v : RxOutcome) : (s.logOutcome v).hv = s.hv := rfl
@[simp] theorem logOutcome_soc (v : RxOutcome) : (s.logOutcome v).soc = s.soc := rfl
@[simp] theorem logOutcome_pdate (v : RxOutcome) : (s.logOutcome v).pdate = s.pdate := rfl
@[simp] theorem logOutcome_lastIdx (v : RxOutcome) : (s.logOutcome v).lastIdx = s.lastIdx := rfl
@[simp] theorem logOutcome_cursor (v : RxOutcome) : (s.logOutcome v).cursor = s.cursor := rfl
@[simp] theorem logOutcome_pdf (v : RxOutcome) : (s.logOutcome v).pdf = s.pdf := rfl
@[simp] theorem logOutcome_psm (v : RxOutcome) : (s.logOutcome v).psm = s.psm := rfl
@[simp] theorem logOutcome_redraw (v : RxOutcome) : (s.logOutcome v).redraw = s.redraw := rfl
@[simp] theorem logOutcome_tMs (v : RxOutcome) : (s.logOutcome v).tMs = s.tMs := rfl
@[simp] theorem logOutcome_tDs (v : RxOutcome) : (s.logOutcome v).tDs = s.tDs := rfl
@[simp] theorem logOutcome_lMs (v : RxOutcome) : (s.logOutcome v).lMs = s.lMs := rfl
@[simp] theorem logOutcome_lDs (v : RxOutcome) : (s.logOutcome v).lDs = s.lDs := rfl
@[simp] theorem logOutcome_slots (v : RxOutcome) : (s.logOutcome v).slots = s.slots := rfl
@[simp] theorem logOutcome_discardCtr (v : RxOutcome) : (s.logOutcome v).discardCtr = s.discardCtr := rfl
@[simp] theorem logOutcome_txLog (v : RxOutcome) : (s.logOutcome v).txLog = s.txLog := rfl
@[simp] theorem logOutcome_fault (v : RxOutcome) : (s.logOutcome v).fault = s.fault := rfl

@[simp] theorem withStim_cfg (v : List Sw) : (s.withStim v).cfg = s.cfg := rfl
@[simp] theorem withStim_stim (v : List Sw) : (s.withStim v).stim = v := rfl
@[simp] theorem withStim_rxLog (v : List Sw) : (s.withStim v).rxLog = s.rxLog := rfl
@[simp] theorem withStim_cell (v : List Sw) : (s.withStim v).cell = s.cell := rfl
@[simp] theorem withStim_hv (v : List Sw) : (s.withStim v).hv = s.hv := rfl
@[simp] theorem withStim_soc (v : List Sw) : (s.withStim v).soc = s.soc := rfl
@[simp] theorem withStim_pdate (v : List Sw) : (s.withStim v).pdate = s.pdate := rfl
@[simp] theorem withStim_lastIdx (v : List Sw) : (s.withStim v).lastIdx = s.lastIdx := rfl
@[simp] theorem withStim_cursor (v : List Sw) : (s.withStim v).cursor = s.cursor := rfl
@[simp] theorem withStim_pdf (v : List Sw) : (s.withStim v).pdf = s.pdf := rfl
@[simp] theorem withStim_psm (v : List Sw) : (s.withStim v).psm = s.psm := rfl
@[simp] theorem withStim_redraw (v : List Sw) : (s.withStim v).redraw = s.redraw := rfl
@[simp] theorem withStim_tMs (v : List Sw) : (s.withStim v).tMs = s.tMs := rfl
@[simp] theorem withStim_tDs (v : List Sw) : (s.withStim v).tDs = s.tDs := rfl
@[simp] theorem withStim_lMs (v : List Sw) : (s.withStim v).lMs = s.lMs := rfl
@[simp] theorem withStim_lDs (v : List Sw) : (s.withStim v).lDs = s.lDs := rfl
@[simp] theorem withStim_slots (v : List Sw) : (s.withStim v).slots = s.slots := rfl
@[simp] theorem withStim_discardCtr (v : List Sw) : (s.withStim v).discardCtr = s.discardCtr := rfl
@[simp] theorem withStim_txLog (v : List Sw) : (s.withStim v).txLog = s.txLog := rfl
@[simp] theorem withStim_fault (v : List Sw) : (s.withStim v).fault = s.fault := rfl

end Sys2Proof.Machine.State
end

