-- ==== Sys2Proof/Laws/Ops.lean ====
section
/-! SUPPORT. What each shared operation can do, said once: the slot array, the tick of one slot, the samples of LOOP, the
returns of RX, and the case analyses of select and of the PSM step. Later proofs cite these and unfold none of them. -/

namespace Sys2Proof.Machine

/-! ## Slots -/

@[simp] theorem mapSlots_getElem (n : Nat) (f : TimerSlot → TimerSlot) (v : Vector TimerSlot nSlots) (j : Nat)
    (h : j < nSlots) : (mapSlots n f v)[j] = if j < n then f v[j] else v[j] := by
  have hl : v.toArray.toList.length = nSlots := by simp
  simp only [mapSlots, Vector.getElem_mk, List.getElem_toArray, List.getElem_append, List.length_map, List.length_take, hl]
  by_cases hj : j < n
  · rw [dif_pos (by omega), if_pos hj]; simp
  · rw [dif_neg (by omega), if_neg hj]; simp only [List.getElem_drop, Array.getElem_toList, Vector.getElem_toArray]
    congr 1; omega

@[simp] theorem mapSlots_get (n : Nat) (f : TimerSlot → TimerSlot) (v : Vector TimerSlot nSlots) (j : Fin nSlots) :
    (mapSlots n f v)[j] = if j.val < n then f v[j] else v[j] := mapSlots_getElem n f v j j.isLt

theorem slot_set_self (v : Vector TimerSlot nSlots) (j : Fin nSlots) (x : TimerSlot) : (v.set j x)[j] = x := by
  simp

theorem slot_set_ne (v : Vector TimerSlot nSlots) {j k : Fin nSlots} (x : TimerSlot) (h : j ≠ k) :
    (v.set k x)[j] = v[j] := by
  have : (k : Nat) ≠ j := fun e => h (Fin.ext e.symm)
  simp [this]

theorem countUp_toNat (ceil cnt : Count) : (countUp ceil cnt).toNat = min (cnt.toNat + 1) ceil.toNat := by
  have h : min (cnt.toNat + 1) ceil.toNat < 2 ^ 32 := lt_of_le_of_lt (min_le_right _ _) ceil.isLt
  rw [countUp, BitVec.toNat_ofNat, Nat.mod_eq_of_lt h]

theorem counts_iff (g : Gran) (t : TimerSlot) : t.counts g = true ↔ t.run = true ∧ t.gran = g := by
  simp [TimerSlot.counts]

theorem tick_of_counts {ceil : Count} {g : Gran} {t : TimerSlot} (h : t.counts g = true) :
    (t.tick ceil g).cnt = countUp ceil t.cnt ∧
      ((t.tick ceil g).expired = true ↔ t.expired = true ∨ t.period.toNat ≤ (countUp ceil t.cnt).toNat) := by
  simp [TimerSlot.tick, h, TimerSlot.reached]

theorem tick_of_not_counts {ceil : Count} {g : Gran} {t : TimerSlot} (h : t.counts g = false) :
    t.tick ceil g = t := by
  simp [TimerSlot.tick, h]

@[simp] theorem tick_run (ceil : Count) (g : Gran) (t : TimerSlot) : (t.tick ceil g).run = t.run := by
  unfold TimerSlot.tick; split <;> rfl
@[simp] theorem tick_gran (ceil : Count) (g : Gran) (t : TimerSlot) : (t.tick ceil g).gran = t.gran := by
  unfold TimerSlot.tick; split <;> rfl
@[simp] theorem tick_period (ceil : Count) (g : Gran) (t : TimerSlot) : (t.tick ceil g).period = t.period := by
  unfold TimerSlot.tick; split <;> rfl

/-! ## One sample -/

/-- sample(g) writes L_g and the slots, and nothing else (40_timer_service.md R123). -/
theorem sample_eq (g : Gran) (s : State) :
    sample g s = (writeSampledLevel g (toggleFlag g s) s).writeSlots
      (if edgePending g s then mapSlots s.cfg.numSlots.val (TimerSlot.tick s.cfg.ceil g) s.slots else s.slots) := by
  cases g <;> unfold sample edgePending tickSlots <;> split <;> rename_i h
  · rfl
  · have h' : s.tMs = s.lMs := by simpa [toggleFlag, sampledLevel] using h
    show s = (s.writeLMs s.tMs).writeSlots s.slots
    rw [h']; rfl
  · rfl
  · have h' : s.tDs = s.lDs := by simpa [toggleFlag, sampledLevel] using h
    show s = (s.writeLDs s.tDs).writeSlots s.slots
    rw [h']; rfl

/-- The slots after both samples of a pass: each slot takes one tick if its own flag shows an edge. -/
def ticked (s : State) (t : TimerSlot) : TimerSlot :=
  if edgePending t.gran s then t.tick s.cfg.ceil t.gran else t

theorem tick_other {ceil : Count} {g : Gran} {t : TimerSlot} (h : t.gran ≠ g) : t.tick ceil g = t :=
  tick_of_not_counts (by simp [TimerSlot.counts, h])

theorem ticked_period (s : State) (t : TimerSlot) : (ticked s t).period = t.period := by
  unfold ticked; split <;> simp
theorem ticked_run (s : State) (t : TimerSlot) : (ticked s t).run = t.run := by
  unfold ticked; split <;> simp
theorem ticked_gran (s : State) (t : TimerSlot) : (ticked s t).gran = t.gran := by
  unfold ticked; split <;> simp

/-- An edge is pending exactly when the granularity's flag differs from its sampled level. -/
theorem edgePending_iff (g : Gran) (s : State) :
    edgePending g s = true ↔ (g = .ms ∧ s.tMs ≠ s.lMs ∨ g = .ds ∧ s.tDs ≠ s.lDs) := by
  cases g <;> simp [edgePending, toggleFlag, sampledLevel]

/-- A running slot with an edge counts one tick; every other slot keeps its value (40_timer_service.md R123 to R126). -/
theorem ticked_spec (s : State) (t : TimerSlot) :
    (t.run = true ∧ edgePending t.gran s = true →
      (ticked s t).cnt.toNat = min (t.cnt.toNat + 1) s.cfg.ceil.toNat ∧
        ((ticked s t).expired = true ↔ t.expired = true ∨ t.period.toNat ≤ (ticked s t).cnt.toNat)) ∧
    (¬ (t.run = true ∧ edgePending t.gran s = true) → ticked s t = t) := by
  constructor
  · rintro ⟨h1, h2⟩
    obtain ⟨a, b⟩ := tick_of_counts (ceil := s.cfg.ceil) ((counts_iff t.gran t).2 ⟨h1, rfl⟩)
    rw [ticked, if_pos h2, b, a, countUp_toNat]
    exact ⟨rfl, Iff.rfl⟩
  · intro h
    unfold ticked
    split
    · rename_i he
      exact tick_of_not_counts (by rw [← Bool.not_eq_true, counts_iff]; exact fun hh => h ⟨hh.1, he⟩)
    · rfl

/-- The state after both samples: the two levels are those of the flags, every slot is `ticked`, nothing else changes
(40_timer_service.md R122 to R126). -/
theorem sampleBoth_eq (s : State) :
    sampleBoth s = { s with lMs := s.tMs, lDs := s.tDs, slots := mapSlots s.cfg.numSlots.val (ticked s) s.slots } := by
  have key : (if edgePending .ds (sample .ms s) then mapSlots (sample .ms s).cfg.numSlots.val
      (TimerSlot.tick (sample .ms s).cfg.ceil .ds) (sample .ms s).slots else (sample .ms s).slots)
      = mapSlots s.cfg.numSlots.val (ticked s) s.slots := by
    have hcfg : (sample .ms s).cfg = s.cfg := by rw [sample_eq]; rfl
    have hedge : edgePending .ds (sample .ms s) = edgePending .ds s := by rw [sample_eq]; rfl
    have hslots : (sample .ms s).slots
        = if edgePending .ms s then mapSlots s.cfg.numSlots.val (TimerSlot.tick s.cfg.ceil .ms) s.slots else s.slots := by
      rw [sample_eq]; rfl
    rw [hcfg, hedge, hslots]
    apply Vector.ext
    intro j hj
    by_cases hn : j < s.cfg.numSlots.val
    swap
    · split_ifs <;> simp only [mapSlots_getElem, if_neg hn]
    rw [mapSlots_getElem, if_pos hn]
    cases hg : s.slots[j].gran with
    | ms =>
      have ho : ∀ x : TimerSlot, x.gran = .ms → x.tick s.cfg.ceil .ds = x :=
        fun x hx => tick_other (by rw [hx]; decide)
      cases h1 : edgePending .ms s <;> cases h2 : edgePending .ds s <;> simp [ticked, hg, h1, ho, hn]
    | ds =>
      have ho : s.slots[j].tick s.cfg.ceil .ms = s.slots[j] := tick_other (by rw [hg]; decide)
      cases h1 : edgePending .ms s <;> cases h2 : edgePending .ds s <;> simp [ticked, hg, h2, ho, hn]
  rw [sampleBoth, sample_eq .ds, key, sample_eq .ms]
  rfl

/-- Slot `j` after both samples: `ticked` if it is one of the NSLOTS slots, unchanged otherwise. -/
def sampledSlot (s : State) (j : Fin nSlots) : TimerSlot :=
  if j.val < s.cfg.numSlots.val then ticked s s.slots[j] else s.slots[j]

theorem mapSlots_ticked (s : State) (j : Fin nSlots) :
    (mapSlots s.cfg.numSlots.val (ticked s) s.slots)[j] = sampledSlot s j := mapSlots_get ..

theorem sampledSlot_of_lt {s : State} {j : Fin nSlots} (h : j.val < s.cfg.numSlots.val) :
    sampledSlot s j = ticked s s.slots[j] := if_pos h

theorem sampledSlot_period (s : State) (j : Fin nSlots) : (sampledSlot s j).period = s.slots[j].period := by
  unfold sampledSlot; split <;> simp only [ticked_period]
theorem sampledSlot_run (s : State) (j : Fin nSlots) : (sampledSlot s j).run = s.slots[j].run := by
  unfold sampledSlot; split <;> simp only [ticked_run]
theorem sampledSlot_gran (s : State) (j : Fin nSlots) : (sampledSlot s j).gran = s.slots[j].gran := by
  unfold sampledSlot; split <;> simp only [ticked_gran]

/-- A running slot below NSLOTS with an edge counts one tick; every other slot keeps its value (40_timer_service.md R123 to
R126). -/
theorem sampledSlot_spec (s : State) (j : Fin nSlots) :
    (j.val < s.cfg.numSlots.val ∧ s.slots[j].run = true ∧ edgePending s.slots[j].gran s = true →
      (sampledSlot s j).cnt.toNat = min (s.slots[j].cnt.toNat + 1) s.cfg.ceil.toNat ∧
        ((sampledSlot s j).expired = true ↔
          s.slots[j].expired = true ∨ s.slots[j].period.toNat ≤ (sampledSlot s j).cnt.toNat)) ∧
    (¬ (j.val < s.cfg.numSlots.val ∧ s.slots[j].run = true ∧ edgePending s.slots[j].gran s = true) →
      sampledSlot s j = s.slots[j]) := by
  unfold sampledSlot
  split
  · rename_i h
    exact ⟨fun hh => (ticked_spec s s.slots[j]).1 hh.2, fun hh => (ticked_spec s s.slots[j]).2 fun k => hh ⟨h, k⟩⟩
  · rename_i h
    exact ⟨fun hh => absurd hh.1 h, fun _ => rfl⟩

@[simp] theorem sampleBoth_slot (s : State) (j : Fin nSlots) : (sampleBoth s).slots[j] = sampledSlot s j := by
  rw [sampleBoth_eq]; exact mapSlots_ticked s j

/-! ## select, request and the PSM step -/

/-- select answers on 0..10 only (43_polling_fsm.md R214). -/
theorem select_cases (c : Config) (cur : BitVec 4) (pdf : Bool) :
    (cur.toNat ≤ 9 ∧ select c cur pdf = some (BitVec.ofNat 8 cur.toNat, pdf)) ∨
    (cur.toNat = 10 ∧ select c cur pdf = some (if pdf then c.tagSoc else c.tagPdate, true)) ∨
    (10 < cur.toNat ∧ select c cur pdf = none) := by
  unfold select
  by_cases h9 : cur.toNat ≤ 9
  · left; refine ⟨h9, ?_⟩
    rw [if_pos h9, BitVec.ofNat_toNat]
  · by_cases h10 : cur = 10
    · exact .inr (.inl ⟨by rw [h10]; rfl, by rw [if_neg h9, if_pos h10]⟩)
    · right; right
      have : cur.toNat ≠ 10 := fun e => h10 (BitVec.eq_of_toNat_eq e)
      exact ⟨by omega, by rw [if_neg h9, if_neg h10]⟩

theorem advance_toNat {cur : BitVec 4} (h : cur.toNat ≤ 10) : (advance cur).toNat = (cur.toNat + 1) % 11 := by
  unfold advance
  split
  · have : cur.toNat = 10 := by omega
    simp [this]
  · rw [BitVec.toNat_add]; simp; omega

/-- A REQUESTING step whose cursor selects a parameter (43_polling_fsm.md R213). -/
theorem request_of_select {s : State} {p : Byte} {pdf : Bool} (h : select s.cfg s.cursor s.pdf = some (p, pdf)) :
    request s = { s with
      pdf := pdf
      txLog := s.txLog ++ [encodeRequest s.cfg p]
      cursor := advance s.cursor
      slots := s.slots.set s.cfg.pollSlot (s.slots[s.cfg.pollSlot].rearm s.cfg.gPoll)
      redraw := true
      psm := .cooldown } := by
  unfold request
  rw [h]
  rfl

/-- What a REQUESTING step does (43_polling_fsm.md R213 to R217, R220). -/
theorem request_cases (s : State) :
    (10 < s.cursor.toNat ∧ request s = s.markFault .cursorOutOfRange) ∨
    (s.cursor.toNat ≤ 10 ∧ ∃ p pdf, select s.cfg s.cursor s.pdf = some (p, pdf) ∧
      request s = { s with
        pdf := pdf
        txLog := s.txLog ++ [encodeRequest s.cfg p]
        cursor := advance s.cursor
        slots := s.slots.set s.cfg.pollSlot (s.slots[s.cfg.pollSlot].rearm s.cfg.gPoll)
        redraw := true
        psm := .cooldown }) := by
  rcases select_cases s.cfg s.cursor s.pdf with ⟨h, e⟩ | ⟨h, e⟩ | ⟨h, e⟩
  · exact .inr ⟨by omega, _, _, e, request_of_select e⟩
  · exact .inr ⟨by omega, _, _, e, request_of_select e⟩
  · exact .inl ⟨h, by rw [request, e]⟩

/-- What one PSM transition does, outside REQUESTING (43_polling_fsm.md R210 to R212, R218). -/
theorem psmStep_cases (s : State) :
    (s.psm = .requesting ∧ psmStep s = request s) ∨
    (s.psm ≠ .requesting ∧ ∃ p, psmStep s = s.writePsm p ∧
      (s.psm = .idle → p = .armed) ∧ (s.psm = .cooldown → p = .idle) ∧
      (s.psm = .armed → p = if s.slots[s.cfg.pollSlot].reached then .requesting else .armed)) := by
  unfold psmStep
  cases h : s.psm with
  | idle => exact .inr ⟨by simp, _, rfl, by simp, by simp, by simp⟩
  | armed =>
    refine .inr ⟨by simp, if s.slots[s.cfg.pollSlot].reached then .requesting else .armed, ?_, by simp, by simp,
      fun _ => rfl⟩
    simp only
    split
    · rfl
    · rw [← h]; rfl
  | requesting => exact .inl ⟨rfl, rfl⟩
  | cooldown => exact .inr ⟨by simp, _, rfl, by simp, by simp, by simp⟩

/-! ## Receive -/

theorem be16_toNat (hi lo : Byte) : (be16 hi lo).toNat = hi.toNat * 256 + lo.toNat := by
  have h := lo.isLt
  rw [be16, BitVec.toNat_append, Nat.shiftLeft_eq, ← Nat.shiftLeft_eq, ← Nat.shiftLeft_add_eq_or_of_lt h,
    Nat.shiftLeft_eq]

theorem be16_eq (hi lo : Byte) : be16 hi lo = BitVec.ofNat 16 (hi.toNat * 256 + lo.toNat) := by
  rw [← be16_toNat, BitVec.ofNat_toNat, BitVec.setWidth_eq]

@[simp] theorem discard_fst (o : RxOutcome) (s : State) : (discard o s).1 = o := rfl

/-- discard writes DISCARD_CTR only, and only where it exists (41_receive_demux.md R175). -/
theorem discard_snd (o : RxOutcome) (s : State) :
    (discard o s).2
      = { s with discardCtr := if s.cfg.hasDiscardCtr then s.discardCtr + 1 else s.discardCtr } := by
  unfold discard
  cases h : s.cfg.hasDiscardCtr <;> rfl

end Sys2Proof.Machine
end

