-- ==== Sys2Proof/Laws/Exec.lean ====
section
/-! SUPPORT. What `exec` does, said once per shape: an RX row is one of seven actions that depend on the configuration and
the operands alone; the other rows by their equations; and the case analysis of a LOOP pass. -/

namespace Sys2Proof.Machine

/-! ## RX rows as actions -/

/-- What an RX event does to the registers (41_receive_demux.md R170): at most one value field, or a discard. -/
inductive RxAction where
  | cell (k : Fin nCells) (v : HalfWord)
  | hv (v : HalfWord)
  | pdate (v : Word)
  | soc (v : HalfWord)
  | ignored
  | placeholder
  | discardId
  | discardType
deriving DecidableEq, Repr

/-- The return of an action. -/
def RxAction.result (s : State) : RxAction → RxOutcome × State
  | .cell k v => updateCell k v s
  | .hv v => updateHv v s
  | .pdate v => updatePdate v s
  | .soc v => updateSoc v s
  | .ignored => (.ignoredTag, s)
  | .placeholder => (.placeholder, s)
  | .discardId => Sys2Proof.Machine.discard .discardId s
  | .discardType => Sys2Proof.Machine.discard .discardType s

/-- The action of the dispatch on the tag (41_receive_demux.md R152). -/
def payloadAction (c : Config) (d : Payload) : RxAction :=
  match tagDest c d.d3 with
  | .soc => .soc (be16 d.d4 d.d5)
  | .cell k => .cell k (be16 d.d4 d.d5)
  | .hv => .hv (be16 d.d4 d.d5)
  | .pdate => .pdate (pdateWord c.pdateMode d.d4 d.d5 d.d6 d.d7)
  | .nothing => .ignored

theorem decodePayload_eq (d : Payload) (s : State) :
    decodePayload d s = (payloadAction s.cfg d).result s := by
  unfold decodePayload payloadAction
  cases tagDest s.cfg d.d3 <;> rfl

/-- The action of the identifier test and the dispatch. -/
def stdAction (c : Config) (id : StdId) (d : Payload) : RxAction :=
  if id = c.respId then payloadAction c d else .discardId

theorem acceptStd_eq (id : StdId) (d : Payload) (s : State) :
    acceptStd id d s = (stdAction s.cfg id d).result s := by
  unfold acceptStd stdAction
  split
  · exact decodePayload_eq d s
  · rfl

/-- The action of the classification of a received frame (41_receive_demux.md R151). -/
def frameAction (c : Config) (f : RxFrame) : RxAction :=
  match f.queue, f.frame.id with
  | .primary, .ext _ => .discardType
  | .primary, .std id => stdAction c id f.frame.data
  | .secondary, .ext _ => .placeholder
  | .secondary, .std id =>
    match c.q1StdPolicy with
    | .discard => .discardType
    | .decode => stdAction c id f.frame.data

theorem demux_eq (f : RxFrame) (s : State) : demux f s = (frameAction s.cfg f).result s := by
  unfold demux frameAction
  cases f.queue <;> cases f.frame.id <;> simp only
  · exact acceptStd_eq _ _ s
  · rfl
  · cases s.cfg.q1StdPolicy
    · rfl
    · exact acceptStd_eq _ _ s
  · rfl

/-- The action of an opcode row; rows outside RX have none. -/
def rowAction (c : Config) : Instr → Option RxAction
  | .rxCell0 a => some (.cell 0 (be16 a.d4 a.d5))
  | .rxCell1 a => some (.cell 1 (be16 a.d4 a.d5))
  | .rxCell2 a => some (.cell 2 (be16 a.d4 a.d5))
  | .rxCell3 a => some (.cell 3 (be16 a.d4 a.d5))
  | .rxCell4 a => some (.cell 4 (be16 a.d4 a.d5))
  | .rxCell5 a => some (.cell 5 (be16 a.d4 a.d5))
  | .rxCell6 a => some (.cell 6 (be16 a.d4 a.d5))
  | .rxCell7 a => some (.cell 7 (be16 a.d4 a.d5))
  | .rxCell8 a => some (.cell 8 (be16 a.d4 a.d5))
  | .rxHv a => some (.hv (be16 a.d4 a.d5))
  | .rxPdate a => some (.pdate (pdateWord c.pdateMode a.d4 a.d5 a.d6 a.d7))
  | .rxSoc a => some (.soc (be16 a.d4 a.d5))
  | .rxTagOther _ _ => some .ignored
  | .rxIdMismatch _ _ => some .discardId
  | .rxExtQ0 _ _ => some .discardType
  | .rxExtQ1 _ _ => some .placeholder
  | .rxStdQ1 id a =>
    some (match c.q1StdPolicy with
      | .discard => .discardType
      | .decode => stdAction c id a.data)
  | .tickMs | .tickDs | .loop | .treset _ _ | .ack | .txReq _ => none

/-- An RX row does its action and logs its outcome. -/
theorem exec_of_rowAction {i : Instr} {s : State} {x : RxAction} (h : rowAction s.cfg i = some x) :
    exec i s = .next (rxReturn (x.result s)) := by
  cases i <;> simp only [rowAction, Option.some.injEq, reduceCtorEq] at h <;> subst h <;> try rfl
  rename_i id a
  show execRxStdQ1 id a s = _
  unfold execRxStdQ1
  cases s.cfg.q1StdPolicy
  · rfl
  · simp only [acceptStd_eq]

theorem rowAction_isSome {c : Config} {i : Instr} (h : i.eventClass = .rx) : ∃ x, rowAction c i = some x := by
  cases i <;> first | exact ⟨_, rfl⟩ | (exact absurd h (by simp [Instr.eventClass]))

/-- Every RX row is an action of the configuration and its operands, and completes. -/
theorem exec_rx {i : Instr} (h : i.eventClass = .rx) (s : State) :
    ∃ x, rowAction s.cfg i = some x ∧ exec i s = .next (rxReturn (x.result s)) := by
  obtain ⟨x, hx⟩ := rowAction_isSome (c := s.cfg) h
  exact ⟨x, hx, exec_of_rowAction hx⟩

/-! ## The other rows -/

@[simp] theorem exec_tickMs (s : State) : exec .tickMs s = .next (s.writeTMs (!s.tMs)) := rfl
@[simp] theorem exec_tickDs (s : State) : exec .tickDs s = .next (s.writeTDs (!s.tDs)) := rfl
@[simp] theorem exec_loop (s : State) : exec .loop s = .next (psmStep (sampleBoth s)) := rfl
@[simp] theorem exec_treset (j : Fin nSlots) (g : Gran) (s : State) :
    exec (.treset j g) s = .next (s.writeSlots (s.slots.set j (s.slots[j].rearm g))) := rfl
@[simp] theorem exec_ack (s : State) : exec .ack s = .next (s.writeRedraw false) := rfl
@[simp] theorem exec_txReq (p : Byte) (s : State) : exec (.txReq p) s = .next (s.markFault .refusedStimulus) := rfl

/-- Every row completes with a next state. -/
theorem exec_completes (i : Instr) (s : State) : ∃ t, exec i s = .next t := by
  cases i <;> exact ⟨_, rfl⟩

/-- What a LOOP pass does (40_timer_service.md R122, 43_polling_fsm.md R210): both samples, then one of the PSM's
transitions, the request, or the cursor fault. -/
theorem loop_cases (s : State) :
    (s.psm ≠ .requesting ∧ ∃ p, psmStep (sampleBoth s)
        = { s with lMs := s.tMs, lDs := s.tDs, slots := mapSlots s.cfg.numSlots.val (ticked s) s.slots, psm := p } ∧
      (s.psm = .idle → p = .armed) ∧ (s.psm = .cooldown → p = .idle) ∧
      (s.psm = .armed → p = if (sampledSlot s s.cfg.pollSlot).reached then .requesting else .armed)) ∨
    (s.psm = .requesting ∧ 10 < s.cursor.toNat ∧ psmStep (sampleBoth s)
        = { s with lMs := s.tMs, lDs := s.tDs, slots := mapSlots s.cfg.numSlots.val (ticked s) s.slots, fault := .cursorOutOfRange }) ∨
    (s.psm = .requesting ∧ s.cursor.toNat ≤ 10 ∧ ∃ p pdf, select s.cfg s.cursor s.pdf = some (p, pdf) ∧
      psmStep (sampleBoth s) = { s with
        lMs := s.tMs
        lDs := s.tDs
        pdf := pdf
        txLog := s.txLog ++ [encodeRequest s.cfg p]
        cursor := advance s.cursor
        slots := (mapSlots s.cfg.numSlots.val (ticked s) s.slots).set s.cfg.pollSlot
          ((sampledSlot s s.cfg.pollSlot).rearm s.cfg.gPoll)
        redraw := true
        psm := .cooldown }) := by
  rw [sampleBoth_eq]
  rcases psmStep_cases { s with lMs := s.tMs, lDs := s.tDs, slots := mapSlots s.cfg.numSlots.val (ticked s) s.slots } with
    ⟨h, e⟩ | ⟨h, p, e, h1, h2, h3⟩
  · rw [e]
    rcases request_cases { s with lMs := s.tMs, lDs := s.tDs, slots := mapSlots s.cfg.numSlots.val (ticked s) s.slots } with
      ⟨hc, e'⟩ | ⟨hc, p, pdf, hs, e'⟩
    · exact .inr (.inl ⟨h, hc, e'⟩)
    · refine .inr (.inr ⟨h, hc, p, pdf, hs, ?_⟩)
      rw [e']
      simp only [mapSlots_ticked]
  · refine .inl ⟨h, p, e, h1, h2, fun ha => ?_⟩
    have h3' := h3 ha
    simp only [mapSlots_ticked] at h3'
    exact h3'

/-- The slots after a LOOP pass, but for the poll slot of a REQUESTING pass. -/
theorem loop_slot (s : State) (j : Fin nSlots) (h : j = s.cfg.pollSlot → s.psm ≠ .requesting) :
    (psmStep (sampleBoth s)).slots[j] = sampledSlot s j := by
  rcases loop_cases s with ⟨-, p, e, -⟩ | ⟨-, -, e⟩ | ⟨hr, -, p, pdf, -, e⟩ <;> rw [e]
  · exact mapSlots_ticked s j
  · exact mapSlots_ticked s j
  · show ((mapSlots s.cfg.numSlots.val (ticked s) s.slots).set _ _)[j] = _
    rw [slot_set_ne _ _ (fun e => h e hr)]; exact mapSlots_ticked s j

/-- The poll slot after a REQUESTING pass (43_polling_fsm.md R216). -/
theorem loop_slot_rearmed {s : State} (hr : s.psm = .requesting) (hc : s.cursor.toNat ≤ 10) :
    (psmStep (sampleBoth s)).slots[s.cfg.pollSlot]
      = ⟨0, false, true, s.cfg.gPoll, s.slots[s.cfg.pollSlot].period⟩ := by
  rcases loop_cases s with ⟨h, p, e, -⟩ | ⟨-, h, e⟩ | ⟨hr, -, p, pdf, -, e⟩
  · exact absurd hr h
  · omega
  · rw [e]
    show ((mapSlots s.cfg.numSlots.val (ticked s) s.slots).set _ _)[s.cfg.pollSlot] = _
    rw [slot_set_self, TimerSlot.rearm, sampledSlot_period]

end Sys2Proof.Machine
end

