-- ==== Sys2Proof/Laws/PerInstr.lean ====
section
/-! SUPPORT. Facts about every instruction as syntax, one lemma per constructor. `ClassCode`: the first byte of an
instruction's word is the code of its event class, in every configuration (30_encoding.md R83). -/

namespace Sys2Proof.Laws.ClassCode

/-- The EC byte of the word is the code of the event class (30_encoding.md R83). -/
def Statement (i : Instr) : Prop := ∀ c : Config, swEc (encode c i) = i.eventClass.code

theorem rxCell0 (a : RespArgs) : Statement (.rxCell0 a) := fun _ => swEc_mkSw ..
theorem rxCell1 (a : RespArgs) : Statement (.rxCell1 a) := fun _ => swEc_mkSw ..
theorem rxCell2 (a : RespArgs) : Statement (.rxCell2 a) := fun _ => swEc_mkSw ..
theorem rxCell3 (a : RespArgs) : Statement (.rxCell3 a) := fun _ => swEc_mkSw ..
theorem rxCell4 (a : RespArgs) : Statement (.rxCell4 a) := fun _ => swEc_mkSw ..
theorem rxCell5 (a : RespArgs) : Statement (.rxCell5 a) := fun _ => swEc_mkSw ..
theorem rxCell6 (a : RespArgs) : Statement (.rxCell6 a) := fun _ => swEc_mkSw ..
theorem rxCell7 (a : RespArgs) : Statement (.rxCell7 a) := fun _ => swEc_mkSw ..
theorem rxCell8 (a : RespArgs) : Statement (.rxCell8 a) := fun _ => swEc_mkSw ..
theorem rxHv (a : RespArgs) : Statement (.rxHv a) := fun _ => swEc_mkSw ..
theorem rxPdate (a : RespArgs) : Statement (.rxPdate a) := fun _ => swEc_mkSw ..
theorem rxSoc (a : RespArgs) : Statement (.rxSoc a) := fun _ => swEc_mkSw ..
theorem rxTagOther (t : Byte) (a : RespArgs) : Statement (.rxTagOther t a) := fun _ => swEc_mkSw ..
theorem rxIdMismatch (id : StdId) (a : FrameArgs) : Statement (.rxIdMismatch id a) := fun _ => swEc_mkSw ..
theorem rxExtQ0 (id : ExtId) (a : FrameArgs) : Statement (.rxExtQ0 id a) := fun _ => swEc_mkSw ..
theorem rxExtQ1 (id : ExtId) (a : FrameArgs) : Statement (.rxExtQ1 id a) := fun _ => swEc_mkSw ..
theorem rxStdQ1 (id : StdId) (a : FrameArgs) : Statement (.rxStdQ1 id a) := fun _ => swEc_mkSw ..
theorem tickMs : Statement (.tickMs) := fun _ => swEc_mkSw ..
theorem tickDs : Statement (.tickDs) := fun _ => swEc_mkSw ..
theorem loop : Statement (.loop) := fun _ => swEc_mkSw ..
theorem treset (slot : Fin nSlots) (g : Gran) : Statement (.treset slot g) := fun _ => swEc_mkSw ..
theorem ack : Statement (.ack) := fun _ => swEc_mkSw ..
theorem txReq (p : Byte) : Statement (.txReq p) := fun _ => swEc_mkSw ..

end Sys2Proof.Laws.ClassCode
end

