-- ==== Sys2Proof/Laws/Step.lean ====
section
/-! SUPPORT. The step and the decoder, said once: what a step with a word to come is, which words decode, what a run of
steps is, and the words of the events without operands. -/

namespace Sys2Proof.Machine

/-! ## The step -/

theorem haltReason_none_iff (s : State) : haltReason s = none ↔ s.fault = .none := by
  unfold haltReason
  cases s.fault <;> simp

/-- A step with a word to come, in a state that is not faulted and has a legal configuration. -/
theorem step_of_word {s : State} {w : Sw} {rest : List Sw} (hf : s.fault = .none) (hl : s.cfg.legal = true)
    (hs : s.stim = w :: rest) : step s = runWord w (s.withStim rest) := by
  unfold step fetch
  rw [(haltReason_none_iff s).2 hf, hs]
  simp [hl]

/-- Every next state comes from an unfaulted, legally configured state. -/
theorem step_next {s t : State} (h : step s = .next t) :
    s.fault = .none ∧ s.cfg.legal = true ∧
      ((s.stim = [] ∧ t = s) ∨ ∃ w rest, s.stim = w :: rest ∧ runWord w (s.withStim rest) = .next t) := by
  unfold step at h
  cases hr : haltReason s with
  | some r => rw [hr] at h; cases h
  | none =>
    rw [hr] at h
    have hf := (haltReason_none_iff s).1 hr
    cases hl : s.cfg.legal with
    | false => simp [hl] at h
    | true =>
      refine ⟨hf, rfl, ?_⟩
      cases hs : s.stim with
      | nil =>
        simp only [hl, fetch, hs, if_true, Host.Outcome.next.injEq] at h
        exact .inl ⟨rfl, h.symm⟩
      | cons w rest =>
        simp only [hl, fetch, hs, if_true] at h
        exact .inr ⟨w, rest, rfl, h⟩

/-- A word runs the row it decodes to, or is refused. -/
theorem runWord_cases (w : Sw) (s : State) :
    (∃ i, decode s.cfg w = .ok i ∧ runWord w s = exec i s) ∨
    (∃ r, decode s.cfg w = .error r ∧ runWord w s = .next (s.markFault .refusedStimulus)) := by
  unfold runWord
  cases h : decode s.cfg w with
  | ok i => exact .inl ⟨i, rfl, rfl⟩
  | error r => exact .inr ⟨r, rfl, rfl⟩

/-! ## Runs -/

@[simp] theorem runSteps_zero (s : State) : runSteps 0 s = .next s := rfl

theorem core_run_next {M : Host.Core} {n : Nat} {s u : M.State} (h : M.step s = .next u) :
    M.run (n + 1) s = M.run n u := by rw [Host.Core.run, h]
theorem core_run_fault {M : Host.Core} {n : Nat} {s : M.State} {r : M.Fault} (h : M.step s = .fault r) :
    M.run (n + 1) s = .fault r := by rw [Host.Core.run, h]
theorem core_run_refused {M : Host.Core} {n : Nat} {s : M.State} {r : M.Refusal} (h : M.step s = .refused r) :
    M.run (n + 1) s = .refused r := by rw [Host.Core.run, h]

/-- The model's run is the host's run of the machine. -/
theorem runSteps_eq_run (n : Nat) (s : State) : runSteps n s = Sys2Proof.core.run n s := by
  induction n generalizing s with
  | zero => rfl
  | succ n ih =>
    rw [runSteps]
    cases h : step s with
    | next u => exact (ih u).trans (core_run_next (M := Sys2Proof.core) h).symm
    | fault r => exact (core_run_fault (M := Sys2Proof.core) h).symm
    | refused r => exact (core_run_refused (M := Sys2Proof.core) h).symm

theorem runSteps_succ {n : Nat} {s t : State} (h : step s = .next t) : runSteps (n + 1) s = runSteps n t := by
  rw [runSteps, h, andThen]

theorem runSteps_succ_next {n : Nat} {s t : State} (h : runSteps (n + 1) s = .next t) :
    ∃ u, step s = .next u ∧ runSteps n u = .next t := by
  rw [runSteps] at h
  cases hs : step s with
  | next u => rw [hs, andThen] at h; exact ⟨u, rfl, h⟩
  | fault r => rw [hs, andThen] at h; cases h
  | refused r => rw [hs, andThen] at h; cases h

theorem runSteps_add {m n : Nat} {s t : State} (h : runSteps m s = .next t) : runSteps (m + n) s = runSteps n t := by
  induction m generalizing s with
  | zero => simp only [runSteps_zero, Host.Outcome.next.injEq] at h; subst h; simp
  | succ m ih =>
    obtain ⟨u, hu, h'⟩ := runSteps_succ_next h
    rw [Nat.succ_add, runSteps_succ hu, ih h']

/-! ## Decoding -/

/-- The decoder's three answers: a TX record, an admitted input word, or a refusal by the failed check. -/
theorem decode_cases (c : Config) (w : Sw) :
    (∃ p, w = txRecord c p ∧ decode c w = .ok (.txReq p)) ∨
    (swEc w ≠ 0x80 ∧ failedCheck w = none ∧ decode c w = .ok (decodeInput c w)) ∨
    (∃ r, failedCheck w = some r ∧ decode c w = .error r) := by
  by_cases h : w = txRecord c (payloadOf (swData w)).d3
  · exact .inl ⟨_, h, by rw [decode, if_pos h]⟩
  · right
    cases hf : failedCheck w with
    | none =>
      refine .inl ⟨fun h8 => ?_, rfl, by rw [decode, if_neg h, hf]⟩
      rw [failedCheck, h8] at hf
      exact absurd hf (by simp)
    | some r => exact .inr ⟨r, rfl, by rw [decode, if_neg h, hf]⟩

@[simp] theorem swEc_txRecord (c : Config) (p : Byte) : swEc (txRecord c p) = 0x80 := swEc_mkSw ..

theorem decode_of_admitted {c : Config} {w : Sw} (h : failedCheck w = none) : decode c w = .ok (decodeInput c w) := by
  rcases decode_cases c w with ⟨p, hw, -⟩ | ⟨-, -, e⟩ | ⟨r, hr, -⟩
  · rw [hw, failedCheck, swEc_txRecord] at h
    exact absurd h (by simp)
  · exact e
  · rw [h] at hr; cases hr

theorem decode_txRecord (c : Config) (p : Byte) : decode c (txRecord c p) = .ok (.txReq p) := by
  have h : (payloadOf (swData (txRecord c p))).d3 = p := by
    rw [txRecord, swData_mkSw, payloadOf_bits]
  rw [decode, h, if_pos rfl]

theorem decode_tickWord_ms (c : Config) : decode c (tickWord .ms) = .ok .tickMs :=
  (decode_of_admitted (by decide)).trans rfl
theorem decode_tickWord_ds (c : Config) : decode c (tickWord .ds) = .ok .tickDs :=
  (decode_of_admitted (by decide)).trans rfl
theorem decode_loopWord (c : Config) : decode c loopWord = .ok .loop :=
  (decode_of_admitted (by decide)).trans rfl

theorem decodeResponse_eventClass (c : Config) (t : Byte) (a : RespArgs) :
    (decodeResponse c t a).eventClass = .rx := by
  simp only [decodeResponse, apply_ite Instr.eventClass]
  simp only [Instr.eventClass, ite_self]

theorem decodeRx_eventClass (c : Config) (w : Sw) : (decodeRx c w).eventClass = .rx := by
  simp only [decodeRx, apply_ite Instr.eventClass, decodeResponse_eventClass]
  simp only [Instr.eventClass, ite_self]

/-- The class of the decoded event is the class of the word (R83, R90). -/
theorem decodeInput_class {c : Config} {w : Sw} (h : failedCheck w = none) :
    swEc w = (decodeInput c w).eventClass.code := by
  unfold failedCheck at h
  unfold decodeInput
  by_cases h1 : swEc w = 0x01
  · rw [if_pos h1, decodeRx_eventClass, h1]; rfl
  rw [if_neg h1] at h ⊢
  by_cases h2 : swEc w = 0x02
  · rw [if_pos h2, h2]; split <;> rfl
  rw [if_neg h2] at h ⊢
  by_cases h3 : swEc w = 0x03
  · rw [if_pos h3, h3]; rfl
  rw [if_neg h3] at h ⊢
  by_cases h4 : swEc w = 0x04
  · rw [if_pos h4, h4]; rfl
  rw [if_neg h4] at h ⊢
  by_cases h5 : swEc w = 0x05
  · rw [h5]; rfl
  rw [if_neg h5] at h
  cases h

/-- Whatever decodes has the class of its word. -/
theorem decode_class {c : Config} {w : Sw} {i : Instr} (h : decode c w = .ok i) : swEc w = i.eventClass.code := by
  rcases decode_cases c w with ⟨p, hw, e⟩ | ⟨-, hf, e⟩ | ⟨r, -, e⟩
  · rw [e] at h; cases h; rw [hw]; exact swEc_txRecord c p
  · rw [e] at h; cases h; exact decodeInput_class hf
  · rw [e] at h; cases h

/-! ## Steps of the operand-free words -/

theorem step_tickWord {s : State} {g : Gran} {rest : List Sw} (hf : s.fault = .none) (hl : s.cfg.legal = true)
    (hs : s.stim = tickWord g :: rest) : step s = .next (invertToggle g (s.withStim rest)) := by
  rw [step_of_word hf hl hs, runWord]
  cases g
  · rw [decode_tickWord_ms]; rfl
  · rw [decode_tickWord_ds]; rfl

theorem step_loopWord {s : State} {rest : List Sw} (hf : s.fault = .none) (hl : s.cfg.legal = true)
    (hs : s.stim = loopWord :: rest) : step s = .next (psmStep (sampleBoth (s.withStim rest))) := by
  rw [step_of_word hf hl hs, runWord, decode_loopWord]; rfl

end Sys2Proof.Machine
end

