-- ==== Sys2Proof/Laws/Text.lean ====
section
/-! SUPPORT. Laws of the scanner, the parser and the printer of the event syntax: digits, tokens, and the line a printed
line parses to. -/

namespace Sys2Proof.Machine

/-! ## Digits -/

theorem digitValue_digitChar {n : Nat} (h : n < 16) : digitValue (digitChar n) = some n := by
  have all : ∀ k : Fin 16, digitValue (digitChar k.val) = some k.val := by decide
  exact all ⟨n, h⟩

/-- A character that is no separator of a line and ends neither a line nor its code. -/
def plainChar (ch : Char) : Bool :=
  ch != ';' && ch != ' ' && ch != '\t' && ch != '\r' && ch != ',' && ch != '\n'

theorem plain_digitChar {n : Nat} (h : n < 16) : plainChar (digitChar n) = true := by
  have all : ∀ k : Fin 16, plainChar (digitChar k.val) = true := by decide
  exact all ⟨n, h⟩

theorem digitsValue_cons {base acc n : Nat} {r : Text} (h : n < 16) (hb : n < base) :
    digitsValue base acc (digitChar n :: r) = digitsValue base (base * acc + n) r := by
  rw [digitsValue, digitValue_digitChar h]; exact if_pos hb

theorem digitsValue_dropZeros {base : Nat} (h : 0 < base) (t : Text) :
    digitsValue base 0 (dropZeros t) = digitsValue base 0 t := by
  induction t using dropZeros.induct with
  | case1 => rfl
  | case2 ch => rfl
  | case3 ch' r ih =>
    have hz : digitValue '0' = some 0 := by decide
    rw [dropZeros, if_pos rfl, ih]
    conv_rhs => rw [digitsValue, hz]
    simp only [h, if_true, Nat.mul_zero]
  | case4 ch ch' r hc => rw [dropZeros, if_neg hc]

theorem dropZeros_cons (ch : Char) (r : Text) : ∃ ch' r', dropZeros (ch :: r) = ch' :: r' := by
  induction r generalizing ch with
  | nil => exact ⟨_, _, rfl⟩
  | cons ch' r ih =>
    rw [dropZeros]; split
    · exact ih ch'
    · exact ⟨_, _, rfl⟩

theorem mem_dropZeros {t : Text} {ch : Char} (h : ch ∈ dropZeros t) : ch ∈ t := by
  induction t using dropZeros.induct with
  | case1 => exact h
  | case2 c => exact h
  | case3 c r ih => rw [dropZeros, if_pos rfl] at h; exact List.mem_cons_of_mem _ (ih h)
  | case4 c c' r hc => rw [dropZeros, if_neg hc] at h; exact h

theorem dataByte_hexByte (b : Byte) : dataByte (hexByte b) = some b := by
  have hb := b.isLt
  rw [hexByte, dataByte, digitsValue_cons (by omega) (by omega), digitsValue_cons (by omega) (by omega), digitsValue]
  simp only [Option.map_some, Option.some.injEq]
  apply BitVec.eq_of_toNat_eq
  rw [BitVec.toNat_ofNat]; omega

theorem digitsValue_hexByte (acc : Nat) (b : Byte) (r : Text) :
    digitsValue 16 acc (hexByte b ++ r) = digitsValue 16 (256 * acc + b.toNat) r := by
  have hb := b.isLt
  simp only [hexByte, List.cons_append, List.nil_append]
  rw [digitsValue_cons (by omega) (by omega), digitsValue_cons (by omega) (by omega)]
  congr 1; omega

theorem numberOf_hexWord (w : Word) : numberOf (hexWord w) = some w.toNat := by
  obtain ⟨ch, r, e⟩ : ∃ ch r, dropZeros (hexByte (w.extractLsb' 24 8) ++ hexByte (w.extractLsb' 16 8)
      ++ hexByte (w.extractLsb' 8 8) ++ hexByte (w.extractLsb' 0 8)) = ch :: r := dropZeros_cons _ _
  rw [hexWord, e, numberOf, if_pos ⟨rfl, rfl⟩, ← e, digitsValue_dropZeros (by omega), List.append_assoc, List.append_assoc,
    digitsValue_hexByte, digitsValue_hexByte, digitsValue_hexByte, ← List.append_nil (hexByte _), digitsValue_hexByte,
    digitsValue]
  simp only [BitVec.extractLsb'_toNat, Nat.shiftRight_eq_div_pow, Option.some.injEq]
  have := w.isLt
  omega

theorem boundedNumber_digitText {b : BitVec 4} {bound : Nat} (h : b.toNat < bound) :
    boundedNumber bound (digitText b) = some b.toNat := by
  have all : ∀ b : BitVec 4, numberOf (digitText b) = some b.toNat := by decide
  rw [boundedNumber, all]; exact if_pos h

theorem granOperand_granText (g : Gran) : granOperand (granText g) = some g := by cases g <;> decide

/-! ## Tokens -/

theorem afterKey_append (k t : Text) : afterKey k (k ++ t) = some t := by
  induction k with
  | nil => rfl
  | cons ch k ih => simp only [List.cons_append, afterKey, if_true, ih]

/-- A token the scanner reads back: a comma, or plain characters, at least one. -/
def Token (t : Text) : Prop := t = [','] ∨ (t ≠ [] ∧ ∀ ch ∈ t, plainChar ch = true)

theorem tokensFrom_append {t : Text} (h : ∀ ch ∈ t, plainChar ch = true) (cur r : Text) :
    tokensFrom cur (t ++ r) = tokensFrom (cur ++ t) r := by
  induction t generalizing cur with
  | nil => simp
  | cons ch t ih =>
    have hc := h ch (List.mem_cons_self ..)
    simp only [plainChar, Bool.and_eq_true, bne_iff_ne] at hc
    obtain ⟨⟨⟨⟨⟨h1, h2⟩, h3⟩, h4⟩, h5⟩, -⟩ := hc
    rw [List.cons_append, tokensFrom, if_neg h1, if_neg (by simp [h2, h3, h4]), if_neg h5,
      ih fun c hc => h c (List.mem_cons_of_mem _ hc), List.append_assoc]
    rfl

theorem flush_of_ne_nil {t : Text} (h : t ≠ []) : flush t = [t] := by
  cases t with
  | nil => exact absurd rfl h
  | cons => rfl

theorem tokensFrom_blank (cur r : Text) : tokensFrom cur (' ' :: r) = flush cur ++ tokensFrom [] r := by
  rw [tokensFrom, if_neg (by decide), if_pos (by decide)]

theorem tokensFrom_comma (cur r : Text) : tokensFrom cur (',' :: r) = flush cur ++ [','] :: tokensFrom [] r := by
  rw [tokensFrom, if_neg (by decide), if_neg (by decide), if_pos rfl]

theorem joinTokens_comma (r : List Text) : ∃ x, joinTokens ([','] :: r) = ',' :: x := by
  cases r with
  | nil => exact ⟨[], rfl⟩
  | cons u r =>
    rw [joinTokens]; split
    · exact ⟨_, rfl⟩
    · exact ⟨_, rfl⟩

/-- The scanner reads the tokens of a printed line back. -/
theorem tokensFrom_joinTokens {ts : List Text} (h : ∀ t ∈ ts, Token t) : tokensFrom [] (joinTokens ts) = ts := by
  induction ts with
  | nil => rfl
  | cons t ts ih =>
    have ih := ih fun u hu => h u (List.mem_cons_of_mem _ hu)
    have ht := h t (List.mem_cons_self ..)
    cases ts with
    | nil =>
      rcases ht with rfl | ⟨hn, hp⟩
      · decide
      · rw [joinTokens, ← List.append_nil t, tokensFrom_append hp]
        simp only [List.nil_append, List.append_nil, tokensFrom, flush_of_ne_nil hn]
    | cons u r =>
      rw [joinTokens]
      split
      · rename_i hu
        subst hu
        obtain ⟨x, e⟩ := joinTokens_comma r
        rcases ht with rfl | ⟨hn, hp⟩
        · show tokensFrom [] (',' :: joinTokens ([','] :: r)) = _
          rw [tokensFrom_comma, ih]; rfl
        · rw [tokensFrom_append hp, List.nil_append, e, tokensFrom_comma, flush_of_ne_nil hn]
          rw [e, tokensFrom_comma] at ih
          rw [show flush ([] : Text) ++ [','] :: tokensFrom [] x = [','] :: tokensFrom [] x from rfl] at ih
          rw [ih]; rfl
      · rcases ht with rfl | ⟨hn, hp⟩
        · show tokensFrom [] (',' :: ' ' :: joinTokens (u :: r)) = _
          rw [tokensFrom_comma, tokensFrom_blank, ih]; rfl
        · rw [tokensFrom_append hp, List.nil_append, tokensFrom_blank, flush_of_ne_nil hn, ih]; rfl

theorem linesFrom_one {t : Text} (h : ∀ ch ∈ t, ch ≠ '\n') (cur : Text) : linesFrom cur t = [cur ++ t] := by
  induction t generalizing cur with
  | nil => simp [linesFrom]
  | cons ch t ih =>
    rw [linesFrom, if_neg (h ch (List.mem_cons_self ..)), ih fun c hc => h c (List.mem_cons_of_mem _ hc), List.append_assoc]
    rfl

theorem ne_newline_of_token {t : Text} (h : Token t) : ∀ ch ∈ t, ch ≠ '\n' := by
  rintro ch hc rfl
  rcases h with rfl | ⟨-, hp⟩
  · revert hc; decide
  · exact absurd (hp _ hc) (by decide)

theorem ne_newline_joinTokens {ts : List Text} (h : ∀ t ∈ ts, Token t) : ∀ ch ∈ joinTokens ts, ch ≠ '\n' := by
  induction ts with
  | nil => intro ch hc; exact absurd hc List.not_mem_nil
  | cons t ts ih =>
    have ih := ih fun u hu => h u (List.mem_cons_of_mem _ hu)
    have ht := ne_newline_of_token (h t (List.mem_cons_self ..))
    cases ts with
    | nil => exact ht
    | cons u r =>
      intro ch hc
      rw [joinTokens] at hc
      split at hc
      · exact (List.mem_append.1 hc).elim (ht ch) (ih ch)
      · rcases List.mem_append.1 hc with hc | hc
        · exact ht ch hc
        · rcases List.mem_cons.1 hc with rfl | hc
          · decide
          · exact ih ch hc

/-! ## Printed lines -/

theorem plain_hexByte (b : Byte) : ∀ ch ∈ hexByte b, plainChar ch = true := by
  have hb := b.isLt
  intro ch hc
  simp only [hexByte, List.mem_cons, List.not_mem_nil, or_false] at hc
  rcases hc with rfl | rfl <;> exact plain_digitChar (by omega)

theorem plain_hexWord (w : Word) : ∀ ch ∈ hexWord w, plainChar ch = true := by
  intro ch hc
  rcases List.mem_cons.1 hc with rfl | hc
  · decide
  rcases List.mem_cons.1 hc with rfl | hc
  · decide
  have := mem_dropZeros hc
  simp only [List.mem_append] at this
  rcases this with ((hc | hc) | hc) | hc <;> exact plain_hexByte _ ch hc

theorem plain_digitText (b : BitVec 4) : ∀ ch ∈ digitText b, plainChar ch = true := by
  have all : ∀ b : BitVec 4, (digitText b).all plainChar = true := by decide
  exact List.all_eq_true.1 (all b)

theorem token_append {k t : Text} (hn : k ≠ []) (hk : k.all plainChar = true) (ht : ∀ ch ∈ t, plainChar ch = true) :
    Token (k ++ t) :=
  .inr ⟨by simp [hn], fun ch hc => (List.mem_append.1 hc).elim (List.all_eq_true.1 hk ch) (ht ch)⟩

theorem token_of_all {t : Text} (hn : t ≠ []) (h : t.all plainChar = true) : Token t :=
  .inr ⟨hn, List.all_eq_true.1 h⟩

theorem token_hexByte (b : Byte) : Token (hexByte b) := .inr ⟨by simp [hexByte], plain_hexByte b⟩

theorem token_granText (g : Gran) : Token (granText g) := by cases g <;> exact token_of_all (by decide) (by decide)

theorem token_digitText (b : BitVec 4) : Token (digitText b) := by
  have all : ∀ b : BitVec 4, digitText b ≠ [] := by decide
  exact .inr ⟨all b, plain_digitText b⟩

theorem token_lineTokens (l : EventLine) : ∀ t ∈ lineTokens l, Token t := by
  intro t ht
  cases l with
  | rx q ide rtr dlc id data =>
    simp only [lineTokens, List.mem_cons, List.not_mem_nil, or_false] at ht
    rcases ht with rfl | rfl | rfl | rfl | rfl | rfl | rfl | rfl | rfl | rfl | rfl | rfl | rfl | rfl
    · exact token_of_all (by decide) (by decide)
    · exact token_append (by decide) (by decide) (plain_digitText _)
    · exact token_append (by decide) (by decide) (plain_digitText _)
    · exact token_append (by decide) (by decide) (plain_digitText _)
    · exact token_append (by decide) (by decide) (plain_digitText _)
    · exact token_append (by decide) (by decide) (plain_hexWord _)
    · exact token_append (by decide) (by decide) (plain_hexByte _)
    all_goals exact token_hexByte _
  | tick g =>
    simp only [lineTokens, List.mem_cons, List.not_mem_nil, or_false] at ht
    rcases ht with rfl | rfl
    · exact token_of_all (by decide) (by decide)
    · exact token_granText g
  | loop =>
    rw [lineTokens, List.mem_singleton] at ht
    subst ht; exact token_of_all (by decide) (by decide)
  | treset j g =>
    simp only [lineTokens, List.mem_cons, List.not_mem_nil, or_false] at ht
    rcases ht with rfl | rfl | rfl | rfl
    · exact token_of_all (by decide) (by decide)
    · exact token_digitText j
    · exact .inl rfl
    · exact token_granText g
  | ack =>
    rw [lineTokens, List.mem_singleton] at ht
    subst ht; exact token_of_all (by decide) (by decide)

theorem optionalOperand_digitText (key : String) {bound : Nat} {b : BitVec 4} (h : b.toNat < bound) (r : List Text) :
    optionalOperand key bound ((key.toList ++ digitText b) :: r) = some (some b, r) := by
  rw [optionalOperand, afterKey_append]
  simp only [boundedNumber_digitText h, Option.map_some, BitVec.ofNat_toNat, BitVec.setWidth_eq]

theorem idAndData_printed (id : Word) (d : Payload) :
    idAndData ["id=".toList ++ hexWord id, "data=".toList ++ hexByte d.d0, hexByte d.d1, hexByte d.d2, hexByte d.d3,
      hexByte d.d4, hexByte d.d5, hexByte d.d6, hexByte d.d7] = some (id, d) := by
  have hb : boundedNumber (2 ^ 32) (hexWord id) = some id.toNat := by
    rw [boundedNumber, numberOf_hexWord]; exact if_pos id.isLt
  rw [idAndData, afterKey_append, afterKey_append]
  simp only [hexWord] at hb ⊢
  simp only [hb, dataByte_hexByte, BitVec.ofNat_toNat, BitVec.setWidth_eq]

/-- What an RX line's operands hold for its printed text to be of the syntax (R91). -/
def EventLine.writable : EventLine → Prop
  | .rx q ide rtr dlc _ _ =>
    (q.getD 0).toNat ≤ 1 ∧ (ide.getD 0).toNat ≤ 1 ∧ (rtr.getD 0).toNat ≤ 1 ∧ (dlc.getD 8).toNat ≤ 8
  | .tick _ | .loop | .treset _ _ | .ack => True

/-- A line with its omitted operands written out. -/
def EventLine.written : EventLine → EventLine
  | .rx q ide rtr dlc id data => .rx (some (q.getD 0)) (some (ide.getD 0)) (some (rtr.getD 0)) (some (dlc.getD 8)) id data
  | .tick g => .tick g
  | .loop => .loop
  | .treset j g => .treset j g
  | .ack => .ack

theorem assemble_written (l : EventLine) : assemble l.written = assemble l := by cases l <;> rfl

theorem parseLine_lineTokens (c : Config) {l : EventLine} (h : l.writable) :
    parseLine c (lineTokens l) = some [l.written] := by
  cases l with
  | rx q ide rtr dlc id data =>
    obtain ⟨hq, hi, hr, hd⟩ := h
    rw [lineTokens, parseLine, if_pos rfl, rxOperands, optionalOperand_digitText _ (by omega)]
    simp only [optionalOperand_digitText _ (show _ < 2 from Nat.lt_succ_of_le hi),
      optionalOperand_digitText _ (show _ < 2 from Nat.lt_succ_of_le hr),
      optionalOperand_digitText _ (show _ < 9 from Nat.lt_succ_of_le hd), idAndData_printed]
    rfl
  | tick g => cases g <;> rfl
  | loop => rfl
  | treset j g =>
    have hj := boundedNumber_digitText (show j.toNat < 16 from j.isLt)
    rw [lineTokens, parseLine, if_neg (by decide), if_neg (by decide), if_neg (by decide), if_pos rfl, tresetOperands,
      if_pos rfl, hj, granOperand_granText]
    simp only [Option.map_some, BitVec.ofNat_toNat, BitVec.setWidth_eq, EventLine.written]
  | ack => rfl

/-- The text of a line assembles to the line's word. -/
theorem assembleText_printLine (c : Config) {l : EventLine} (h : l.writable) :
    assembleText c (printLine l) = some [assemble l] := by
  rw [assembleText, printLine, String.toList_ofList, linesFrom_one (ne_newline_joinTokens (token_lineTokens l)),
    List.nil_append, parseLines, tokensFrom_joinTokens (token_lineTokens l), parseLine_lineTokens c h]
  simp only [parseLines, List.append_nil, Option.map_some, assembleAll, List.map_cons, List.map_nil, assemble_written]

end Sys2Proof.Machine
end

