-- ==== Sys2Proof/Laws/Words.lean ====
section
/-! SUPPORT. Facts about configurations and words that proofs over the decoder and the opcode table cite: what a legal
configuration is, what an admitted RX word holds, which words `encodeRx` gives, when a word matches a row's mask, and the
slots at reset. -/

namespace Sys2Proof

/-! ## Legal configurations (00_scope.md R9) -/

theorem Config.legal_iff (c : Config) :
    c.legal = true ↔ c.respId ≠ c.reqId ∧ 9 < c.tagSoc.toNat ∧ 9 < c.tagPdate.toNat ∧ c.tagSoc ≠ c.tagPdate ∧
      1 ≤ c.pPoll.toNat ∧ c.pPoll.toNat ≤ c.ceil.toNat ∧ c.ceil.toNat < 2 ^ c.cntW ∧
      c.pollSlot.val < c.numSlots.val ∧ c.numFields = nFields ∧ c.numCells = nCells := by
  simp [Config.legal, Config.meetsR9, Config.countsAgree, and_assoc]

/-- POLL_SLOT < NSLOTS: a tick reaches the poll slot. -/
theorem Config.pollSlot_lt {c : Config} (h : c.legal = true) : c.pollSlot.val < c.numSlots.val :=
  (c.legal_iff.1 h).2.2.2.2.2.2.2.1

/-! ## Small fields -/

theorem ofNat4_dlc (d : Fin 9) : (BitVec.ofNat 4 d.val).toNat = d.val := by
  rw [BitVec.toNat_ofNat, Nat.mod_eq_of_lt]; omega

theorem ofNat4_slot (d : Fin nSlots) : (BitVec.ofNat 4 d.val).toNat = d.val := by
  have h : d.val < 10 := d.isLt
  rw [BitVec.toNat_ofNat, Nat.mod_eq_of_lt]; omega

@[simp] theorem bitOf_codeOfBit (b : Bool) : bitOf (codeOfBit b) = b := by cases b <;> rfl

theorem codeOfBit_le (b : Bool) : (codeOfBit b).toNat ≤ 1 := by cases b <;> decide

theorem zero_or_one {x : BitVec 4} (h : x.toNat ≤ 1) : x = 0 ∨ x = 1 := by
  have all : ∀ x : BitVec 4, x.toNat ≤ 1 → x = 0 ∨ x = 1 := by decide
  exact all x h

theorem codeOfBit_bitOf {x : BitVec 4} (h : x.toNat ≤ 1) : codeOfBit (bitOf x) = x := by
  rcases zero_or_one h with rfl | rfl <;> rfl

theorem ofNat4_dlcOf {w : Sw} (h : (swDlc w).toNat ≤ 8) : BitVec.ofNat 4 (dlcOf w).val = swDlc w := by
  apply BitVec.eq_of_toNat_eq
  rw [ofNat4_dlc]; simp only [dlcOf, Fin.ofNat]; omega

theorem ofNat4_slotOf {w : Sw} (h : (swB w).toNat ≤ 9) : BitVec.ofNat 4 (slotOf w).val = swB w := by
  apply BitVec.eq_of_toNat_eq
  rw [ofNat4_slot]; simp only [slotOf, Fin.ofNat, nSlots]; omega

/-! ## Identifiers in 32 bits -/

theorem stdId_lt (id : StdId) : (id.setWidth 32).toNat < 0x800 := by
  rw [BitVec.toNat_setWidth]; have := id.isLt; omega

theorem extId_lt (id : ExtId) : (id.setWidth 32).toNat < 2 ^ 29 := by
  rw [BitVec.toNat_setWidth]; have := id.isLt; omega

theorem stdId_inj {a b : StdId} : a.setWidth 32 = b.setWidth 32 ↔ a = b := by
  refine ⟨fun h => ?_, fun h => by rw [h]⟩
  have e := congrArg BitVec.toNat h
  rw [BitVec.toNat_setWidth, BitVec.toNat_setWidth] at e
  have := a.isLt
  have := b.isLt
  apply BitVec.eq_of_toNat_eq; omega

theorem stdId_back {x : Word} (h : x.toNat < 0x800) : (x.setWidth 11).setWidth 32 = x := by
  apply BitVec.eq_of_toNat_eq
  simp only [BitVec.toNat_setWidth]; omega

theorem extId_back {x : Word} (h : x.toNat < 2 ^ 29) : (x.setWidth 29).setWidth 32 = x := by
  apply BitVec.eq_of_toNat_eq
  simp only [BitVec.toNat_setWidth]; omega

/-! ## Ranges of zeros -/

theorem extractLsb'_zero_sub {w : Sw} {n start len : Nat} (hn : start + len ≤ n) (h : w.extractLsb' 0 n = 0) :
    w.extractLsb' start len = 0 := by
  apply BitVec.eq_of_getLsbD_eq
  intro i hi
  have e := congrArg (fun x => BitVec.getLsbD x (start + i)) h
  simp only [BitVec.getLsbD_extractLsb', BitVec.ofNat_eq_ofNat, BitVec.getLsbD_zero, Bool.and_eq_false_imp,
    decide_eq_true_eq, Nat.zero_add] at e ⊢
  exact fun _ => e (by omega)

/-! ## RX words (R83, R84) -/

/-- What an admitted RX word holds. -/
theorem rx_word {w : Sw} (h : failedCheck w = none) (h1 : swEc w = 0x01) :
    swReserved w = 0 ∧ (swA w = 0 ∨ swA w = 1) ∧
      (swB w = 0 ∧ (swId w).toNat < 0x800 ∨ swB w = 1 ∧ (swId w).toNat < 2 ^ 29) ∧
      (swC w).toNat ≤ 1 ∧ (swDlc w).toNat ≤ 8 := by
  rw [failedCheck, if_pos h1, failedRxCheck] at h
  split_ifs at h <;> try (simp at h; done)
  all_goals rename_i h1 h2 h3 h4 h5 h6 h7
  all_goals refine ⟨by simpa using h1, zero_or_one (by omega), ?_, by omega, by omega⟩
  · exact .inl ⟨h6, h7⟩
  · exact .inr ⟨(zero_or_one (by omega)).resolve_left h6, h7⟩

/-- Which words of `encodeRx` are admitted. -/
theorem encodeRx_admitted {q ide : BitVec 4} {id : Word} (rtr : Bool) (dlc : Fin 9) (d : Payload) (hq : q.toNat ≤ 1)
    (hi : ide.toNat ≤ 1) (h0 : ide = 0 → id.toNat < 0x800) (h1 : ide ≠ 0 → id.toNat < 2 ^ 29) :
    failedCheck (encodeRx q ide rtr dlc id d) = none := by
  have := codeOfBit_le rtr
  have := ofNat4_dlc dlc
  have := dlc.isLt
  simp only [failedCheck, encodeRx, failedRxCheck, swEc_mkSw, swReserved_mkSw, swA_mkSw, swB_mkSw, swC_mkSw,
    swDlc_mkSw, swId_mkSw]
  split_ifs <;> simp_all <;> omega

theorem dlcOf_encodeRx (q ide : BitVec 4) (rtr : Bool) (dlc : Fin 9) (id : Word) (d : Payload) :
    dlcOf (encodeRx q ide rtr dlc id d) = dlc := by
  apply Fin.ext
  simp only [dlcOf, encodeRx, swDlc_mkSw, ofNat4_dlc, Fin.ofNat]
  exact Nat.mod_eq_of_lt dlc.isLt

theorem frameArgsOf_encodeRx (q ide : BitVec 4) (rtr : Bool) (dlc : Fin 9) (id : Word) (d : Payload) :
    frameArgsOf (encodeRx q ide rtr dlc id d) = ⟨rtr, dlc, d⟩ := by
  rw [frameArgsOf, dlcOf_encodeRx]
  simp [encodeRx]

/-- An admitted RX word is `encodeRx` of its fields. -/
theorem encodeRx_fields {w : Sw} (h : failedCheck w = none) (h1 : swEc w = 0x01) :
    encodeRx (swA w) (swB w) (bitOf (swC w)) (dlcOf w) (swId w) (payloadOf (swData w)) = w := by
  obtain ⟨hr, -, -, hc, hd⟩ := rx_word h h1
  rw [encodeRx, codeOfBit_bitOf hc, ofNat4_dlcOf hd, bits_payloadOf, ← hr, ← h1, mkSw_fields]

/-! ## Matching a mask (R85) -/

theorem and_ff8 (x : BitVec 8) : x &&& 0xFF#8 = x := BitVec.and_allOnes (x := x)
theorem and_f4 (x : BitVec 4) : x &&& 0xF#4 = x := BitVec.and_allOnes (x := x)
theorem and_ff32 (x : BitVec 32) : x &&& 0xFFFFFFFF#32 = x := BitVec.and_allOnes (x := x)

/-- When a word matches a response row. -/
theorem respRow_match (c : Config) (n : String) (t : Byte) (w : Sw) :
    (w &&& (respRow c n t).mask == (respRow c n t).pattern) =
      decide (swEc w = 0x01 ∧ swA w = 0 ∧ swB w = 0 ∧ swId w = c.respId.setWidth 32 ∧
        (payloadOf (swData w)).d3 = t) := by
  have hm : (0xFFFF0000FFFFFFFF000000FF00000000 : Sw)
      = mkSw 0xFF 0xF 0xF 0 0 0 0xFFFFFFFF (Payload.bits ⟨0, 0, 0, 0xFF, 0, 0, 0, 0⟩) := by decide
  rw [Bool.eq_iff_iff, beq_iff_eq, decide_eq_true_iff]
  conv => lhs; rw [← mkSw_fields w, ← bits_payloadOf (swData w)]
  rw [respRow, hm, mkSw_and, bits_and, mkSw_inj, bits_inj]
  simp [and_ff8, and_f4, and_ff32]

/-- When a word matches row 13. -/
theorem tagOtherRow_match (w : Sw) (id : Word) :
    (w &&& 0xFFFF0000FFFFFFFF0000000000000000 == mkSw 0x01 0 0 0 0 0 id 0) =
      decide (swEc w = 0x01 ∧ swA w = 0 ∧ swB w = 0 ∧ swId w = id) := by
  have hm : (0xFFFF0000FFFFFFFF0000000000000000 : Sw) = mkSw 0xFF 0xF 0xF 0 0 0 0xFFFFFFFF 0 := by decide
  rw [Bool.eq_iff_iff, beq_iff_eq, decide_eq_true_iff]
  conv => lhs; rw [← mkSw_fields w]
  rw [hm, mkSw_and, mkSw_inj]
  simp [and_ff8, and_f4, and_ff32]

/-- When a word matches one of rows 14 to 17. -/
theorem headerRow_match (w : Sw) (ec : Byte) (a b : BitVec 4) :
    (w &&& 0xFFFF0000000000000000000000000000 == mkSw ec a b 0 0 0 0 0) =
      decide (swEc w = ec ∧ swA w = a ∧ swB w = b) := by
  have hm : (0xFFFF0000000000000000000000000000 : Sw) = mkSw 0xFF 0xF 0xF 0 0 0 0 0 := by decide
  rw [Bool.eq_iff_iff, beq_iff_eq, decide_eq_true_iff]
  conv => lhs; rw [← mkSw_fields w]
  rw [hm, mkSw_and, mkSw_inj]
  simp [and_ff8, and_f4]

/-- When a word matches row 18 or 19. -/
theorem tickRow_match (w : Sw) (a : BitVec 4) :
    (w &&& 0xFFF00000000000000000000000000000 == mkSw 0x02 a 0 0 0 0 0 0) = decide (swEc w = 0x02 ∧ swA w = a) := by
  have hm : (0xFFF00000000000000000000000000000 : Sw) = mkSw 0xFF 0xF 0 0 0 0 0 0 := by decide
  rw [Bool.eq_iff_iff, beq_iff_eq, decide_eq_true_iff]
  conv => lhs; rw [← mkSw_fields w]
  rw [hm, mkSw_and, mkSw_inj]
  simp [and_ff8, and_f4]

/-- When a word matches one of rows 20 to 22. -/
theorem classRow_match (w : Sw) (ec : Byte) :
    (w &&& 0xFF000000000000000000000000000000 == mkSw ec 0 0 0 0 0 0 0) = decide (swEc w = ec) := by
  have hm : (0xFF000000000000000000000000000000 : Sw) = mkSw 0xFF 0 0 0 0 0 0 0 := by decide
  rw [Bool.eq_iff_iff, beq_iff_eq, decide_eq_true_iff]
  conv => lhs; rw [← mkSw_fields w]
  rw [hm, mkSw_and, mkSw_inj]
  simp [and_ff8]

end Sys2Proof

namespace Sys2Proof.Machine

/-- The slots at reset (70_reset_and_hazards.md R281). -/
theorem resetWith_slot (c : Config) (j : Fin nSlots) :
    (State.resetWith c).slots[j] = ⟨0, false, false, .ms, if j = c.pollSlot then c.pPoll else 0⟩ := by
  show ((Vector.replicate nSlots (TimerSlot.atReset 0)).set c.pollSlot (TimerSlot.atReset c.pPoll))[j] = _
  by_cases h : j = c.pollSlot
  · subst h; rw [slot_set_self, if_pos rfl]; rfl
  · rw [slot_set_ne _ _ h, if_neg h]; simp [TimerSlot.atReset]

end Sys2Proof.Machine
end

