-- ==== Sys2Proof/Tests/Slice0.lean ====
section
/-! SUPPORT. The tests: the checks on terms, words and configurations refuse what they should; words written out from
spec/95_test_vectors.md (the vector's name is in the theorem's docstring) decode to their rows and have the effect the
vector gives; and for every statement with hypotheses a concrete case that meets them (`wit_<statement>`). -/

namespace Sys2Proof.Tests

open Sys2Proof.Machine Sys2Proof.Claims

/-- The launch state of spec/95_test_vectors.md, in the reference configuration. -/
def launch : State := State.launch Config.reference

/-- The reference configuration with one parameter changed. -/
def be32 : Config := { Config.reference with pdateMode := .be32 }
def decodeQ1 : Config := { Config.reference with q1StdPolicy := .decode }
def counting : Config := { Config.reference with hasDiscardCtr := true }
def period1 : Config := { Config.reference with pPoll := 1 }

/-- The next state, if the outcome is one. -/
def after (o : Host.Outcome State Fault Refusal) : Option State :=
  match o with
  | .next t => some t
  | .fault _ => none
  | .refused _ => none

theorem next_of_after {o : Host.Outcome State Fault Refusal} {t : State} (h : after o = some t) : o = .next t := by
  cases o with
  | next u => simp only [after, Option.some.injEq] at h; rw [h]
  | fault r => cases h
  | refused r => cases h

theorem exists_next {o : Host.Outcome State Fault Refusal} (p : State → Bool) (h : (after o).any p = true) :
    ∃ t, o = .next t ∧ p t = true := by
  cases o with
  | next u => exact ⟨u, rfl, h⟩
  | fault r => cases h
  | refused r => cases h

/-- The fault, if the outcome is one. -/
def faultOf (o : Host.Outcome State Fault Refusal) : Option Fault :=
  match o with
  | .next _ => none
  | .fault r => some r
  | .refused _ => none

/-- The refusal, if the outcome is one. -/
def refusalOf (o : Host.Outcome State Fault Refusal) : Option Refusal :=
  match o with
  | .next _ => none
  | .fault _ => none
  | .refused r => some r

/-- One step of `s` on the word `w`. -/
def ran (w : Sw) (s : State) : Option State := after (step { s with stim := [w] })

/-- `s` with slot `j` replaced. -/
def withSlot (j : Fin nSlots) (t : TimerSlot) (s : State) : State := { s with slots := s.slots.set j t }

/-- The poll slot of the launch state with another count and expired flag. -/
def pollAt (cnt : Count) (expired : Bool) (s : State) : State := withSlot 1 ⟨cnt, expired, true, .ds, 10⟩ s

/-- The request frame of 42_request_encoder.md R190, written out. -/
def requestFor (p : Byte) : Frame := ⟨.std 0x723, false, 8, ⟨0x03, 0x22, 0xD9, p, 0, 0, 0, 0⟩⟩

/-- The answer of the decoder, if it admits the word. -/
def decoded (c : Config) (w : Sw) : Option Instr :=
  match decode c w with
  | .ok i => some i
  | .error _ => none

theorem ok_of_decoded {c : Config} {w : Sw} {i : Instr} (h : decoded c w = some i) : decode c w = .ok i := by
  unfold decoded at h
  cases hd : decode c w with
  | ok j => rw [hd] at h; simp only [Option.some.injEq] at h; rw [h]
  | error r => rw [hd] at h; cases h

/-- The check the decoder refuses a word by. -/
def refusedBy (c : Config) (w : Sw) : Option WfCheck :=
  match decode c w with
  | .ok _ => none
  | .error r => some r

theorem passes {w : Sw} (h : failedCheck w = none) : PassesChecks w := (passesChecks_iff w).2 h

theorem fails {w : Sw} (h : failedCheck w ≠ none) : ¬ PassesChecks w := fun p => h ((passesChecks_iff w).1 p)

/-! ## The checks refuse -/

/-- A cell's tag spells a cell row (R86, R90). -/
theorem test_wf_tag_other_cell :
    Instr.wf Config.reference (.rxTagOther 0x09 ⟨false, 8, 0, 0, 0, 0, 0, 0, 0⟩) = false := by decide
theorem test_wf_tag_other_pdate :
    Instr.wf Config.reference (.rxTagOther 0x11 ⟨false, 8, 0, 0, 0, 0, 0, 0, 0⟩) = false := by decide
theorem test_wf_tag_other_soc :
    Instr.wf Config.reference (.rxTagOther 0x14 ⟨false, 8, 0, 0, 0, 0, 0, 0, 0⟩) = false := by decide
theorem test_wf_tag_other_ok :
    Instr.wf Config.reference (.rxTagOther 0x0A ⟨false, 8, 0, 0, 0, 0, 0, 0, 0⟩) = true := by decide
/-- RESP_ID spells a response row (R90). -/
theorem test_wf_id_mismatch :
    Instr.wf Config.reference (.rxIdMismatch 0x72B ⟨false, 8, ⟨0, 0, 0, 0, 0, 0, 0, 0⟩⟩) = false := by decide
/-- The output record is no input event (R90). -/
theorem test_not_an_input : Instr.isInput (.txReq 0x14) = false := by decide
/-- V30-20. -/
theorem test_refused_ec0 : refusedBy Config.reference 0x00000000000000000000000000000000 = some .wfEc := by decide
/-- V30-21. -/
theorem test_refused_ec6 : refusedBy Config.reference 0x06000000000000000000000000000000 = some .wfEc := by decide
/-- V30-23. -/
theorem test_refused_q : refusedBy Config.reference 0x012008000000072B0000000000000000 = some .wfQ := by decide
/-- V30-24. -/
theorem test_refused_dlc : refusedBy Config.reference 0x010009000000072B0000000000000000 = some .wfDlc := by decide
/-- V30-25. -/
theorem test_refused_std_id : refusedBy Config.reference 0x01000800000008000000000000000000 = some .wfId := by decide
/-- V30-26. -/
theorem test_refused_ext_id : refusedBy Config.reference 0x01010800200000000000000000000000 = some .wfId := by decide
/-- V30-27. -/
theorem test_refused_reserved :
    refusedBy Config.reference 0x010008010000072B0000000000000000 = some .wfZero := by decide
/-- V30-28. -/
theorem test_refused_g : refusedBy Config.reference 0x02200000000000000000000000000000 = some .wfG := by decide
/-- V30-29. -/
theorem test_refused_slot : refusedBy Config.reference 0x041A0000000000000000000000000000 = some .wfSlot := by decide
/-- V30-30. -/
theorem test_refused_loop_data :
    refusedBy Config.reference 0x03000000000000000000000000000001 = some .wfZero := by decide
/-- From R84 WF_IDE. -/
theorem test_refused_ide : refusedBy Config.reference 0x010208000000072B0000000000000000 = some .wfIde := by decide
/-- From R84 WF_RTR. -/
theorem test_refused_rtr : refusedBy Config.reference 0x010028000000072B0000000000000000 = some .wfRtr := by decide
/-- V30-22: a TX record is never an input. -/
theorem test_refused_tx_record : failedCheck 0x80000800000007230322D90000000000 = some .wfEc := by decide
/-- R84 on V30-29. -/
theorem test_refused_word_only_marks_the_fault :
    ran 0x041A0000000000000000000000000000 launch = some { launch with fault := .refusedStimulus } := by decide
/-- R9, one constraint each. -/
theorem test_illegal_same_id : Config.legal { Config.reference with reqId := 0x72B } = false := by decide
theorem test_illegal_tag_soc : Config.legal { Config.reference with tagSoc := 0x09 } = false := by decide
theorem test_illegal_tag_pdate : Config.legal { Config.reference with tagPdate := 0x00 } = false := by decide
theorem test_illegal_same_tag : Config.legal { Config.reference with tagPdate := 0x14 } = false := by decide
theorem test_illegal_period_0 : Config.legal { Config.reference with pPoll := 0 } = false := by decide
theorem test_illegal_period_above_ceil : Config.legal { Config.reference with pPoll := 10001 } = false := by decide
theorem test_illegal_cnt_w : Config.legal { Config.reference with cntW := 13 } = false := by decide
theorem test_illegal_poll_slot : Config.legal { Config.reference with numSlots := 1 } = false := by decide
/-- Log 11: the counts the rules are written for. -/
theorem test_illegal_num_cells : Config.legal { Config.reference with numCells := 8 } = false := by decide
theorem test_illegal_num_fields : Config.legal { Config.reference with numFields := 11 } = false := by decide
theorem test_legal_reference : Config.legal Config.reference = true := by decide
/-- R8: PRESCALER = F_PCLK / (TQ x BITRATE). -/
theorem test_prescaler : Config.exactPrescaler { Config.reference with fPclk := some 36000000 } = some 9 := by decide
theorem test_prescaler_agrees :
    Config.prescalerAgrees { Config.reference with fPclk := some 36000000, prescaler := some 9 } = true ∧
      Config.prescalerAgrees { Config.reference with fPclk := some 36000000, prescaler := some 8 } = false ∧
      Config.prescalerAgrees { Config.reference with fPclk := some 36000001, prescaler := some 9 } = true := by decide

/-- Two frames told apart by their identifier, for a queue of depth 1. -/
def frameOf (id : StdId) : RxFrame := ⟨.primary, ⟨.std id, false, 8, ⟨0, 0, 0, 0, 1, 2, 0, 0⟩⟩⟩

/-- 70_reset_and_hazards.md R292: at a full queue a frame is lost or overwritten. -/
theorem test_queue_overflow :
    arriveAtQueue ⟨1, .loseArriving⟩ (frameOf 2) [frameOf 1] = [frameOf 1] ∧
      arriveAtQueue ⟨1, .overwriteOldest⟩ (frameOf 2) [frameOf 1] = [frameOf 2] ∧
      arriveAtQueue ⟨2, .overwriteNewest⟩ (frameOf 3) [frameOf 1, frameOf 2] = [frameOf 1, frameOf 3] ∧
      arriveAtQueue ⟨2, .loseArriving⟩ (frameOf 2) [frameOf 1] = [frameOf 1, frameOf 2] := by decide

/-! ## Decoding of words written out from the spec -/

/-- V30-1. -/
theorem test_decode_rx_cell0 :
    decoded Config.reference 0x010008000000072B000000000FA00000 = some (.rxCell0 ⟨false, 8, 0, 0, 0, 0x0F, 0xA0, 0, 0⟩) := by decide
/-- V41-2. -/
theorem test_decode_rx_cell1 :
    decoded Config.reference 0x010008000000072B000000010F3C0000 = some (.rxCell1 ⟨false, 8, 0, 0, 0, 0x0F, 0x3C, 0, 0⟩) := by decide
/-- V41-3. -/
theorem test_decode_rx_cell2 :
    decoded Config.reference 0x010008000000072B000000020ED80000 = some (.rxCell2 ⟨false, 8, 0, 0, 0, 0x0E, 0xD8, 0, 0⟩) := by decide
/-- V41-4. -/
theorem test_decode_rx_cell3 :
    decoded Config.reference 0x010008000000072B000000030E740000 = some (.rxCell3 ⟨false, 8, 0, 0, 0, 0x0E, 0x74, 0, 0⟩) := by decide
/-- V41-5. -/
theorem test_decode_rx_cell4 :
    decoded Config.reference 0x010008000000072B000000040E100000 = some (.rxCell4 ⟨false, 8, 0, 0, 0, 0x0E, 0x10, 0, 0⟩) := by decide
/-- V41-6. -/
theorem test_decode_rx_cell5 :
    decoded Config.reference 0x010008000000072B000000050DAC0000 = some (.rxCell5 ⟨false, 8, 0, 0, 0, 0x0D, 0xAC, 0, 0⟩) := by decide
/-- V41-7. -/
theorem test_decode_rx_cell6 :
    decoded Config.reference 0x010008000000072B000000060D480000 = some (.rxCell6 ⟨false, 8, 0, 0, 0, 0x0D, 0x48, 0, 0⟩) := by decide
/-- V41-8. -/
theorem test_decode_rx_cell7 :
    decoded Config.reference 0x010008000000072B000000070CE40000 = some (.rxCell7 ⟨false, 8, 0, 0, 0, 0x0C, 0xE4, 0, 0⟩) := by decide
/-- V41-31. -/
theorem test_decode_rx_cell8 :
    decoded Config.reference 0x010004000000072B037F22080C800000 = some (.rxCell8 ⟨false, 4, 0x03, 0x7F, 0x22, 0x0C, 0x80, 0, 0⟩) := by decide
/-- V30-10. -/
theorem test_decode_rx_hv :
    decoded Config.reference 0x010010000000072B000000099C400000 = some (.rxHv ⟨true, 0, 0, 0, 0, 0x9C, 0x40, 0, 0⟩) := by decide
/-- V30-3. -/
theorem test_decode_rx_pdate :
    decoded Config.reference 0x010008000000072B0000001120190A1F = some (.rxPdate ⟨false, 8, 0, 0, 0, 0x20, 0x19, 0x0A, 0x1F⟩) := by decide
/-- V30-4. -/
theorem test_decode_rx_soc :
    decoded Config.reference 0x010008000000072B0000001400640000 = some (.rxSoc ⟨false, 8, 0, 0, 0, 0x00, 0x64, 0, 0⟩) := by decide
/-- V30-5. -/
theorem test_decode_rx_tag_other :
    decoded Config.reference 0x010008000000072B0000000A12340000 = some (.rxTagOther 0x0A ⟨false, 8, 0, 0, 0, 0x12, 0x34, 0, 0⟩) := by decide
/-- V30-6. -/
theorem test_decode_rx_id_mismatch :
    decoded Config.reference 0x010008000000072A000000010F3C0000 = some (.rxIdMismatch 0x72A ⟨false, 8, ⟨0, 0, 0, 1, 0x0F, 0x3C, 0, 0⟩⟩) := by decide
/-- V30-7. -/
theorem test_decode_rx_ext_q0 :
    decoded Config.reference 0x010108000000072B0000001400320000 = some (.rxExtQ0 0x72B ⟨false, 8, ⟨0, 0, 0, 0x14, 0x00, 0x32, 0, 0⟩⟩) := by decide
/-- V30-8. -/
theorem test_decode_rx_ext_q1 :
    decoded Config.reference 0x0111080018DAF110000000020ED80000 = some (.rxExtQ1 0x18DAF110 ⟨false, 8, ⟨0, 0, 0, 2, 0x0E, 0xD8, 0, 0⟩⟩) := by decide
/-- V30-9. -/
theorem test_decode_rx_std_q1 :
    decoded Config.reference 0x011008000000072B000000030E740000 = some (.rxStdQ1 0x72B ⟨false, 8, ⟨0, 0, 0, 3, 0x0E, 0x74, 0, 0⟩⟩) := by decide
/-- V30-11. -/
theorem test_decode_tick_ms :
    decoded Config.reference 0x02000000000000000000000000000000 = some (.tickMs) := by decide
/-- V30-12. -/
theorem test_decode_tick_ds :
    decoded Config.reference 0x02100000000000000000000000000000 = some (.tickDs) := by decide
/-- V30-13. -/
theorem test_decode_loop : decoded Config.reference 0x03000000000000000000000000000000 = some (.loop) := by decide
/-- V30-14. -/
theorem test_decode_treset :
    decoded Config.reference 0x04110000000000000000000000000000 = some (.treset 1 .ds) := by decide
/-- V30-16. -/
theorem test_decode_treset_slot9 :
    decoded Config.reference 0x04090000000000000000000000000000 = some (.treset 9 .ms) := by decide
/-- V30-17. -/
theorem test_decode_ack : decoded Config.reference 0x05000000000000000000000000000000 = some (.ack) := by decide
/-- V42-3. -/
theorem test_decode_tx_req :
    decoded Config.reference 0x80000800000007230322D91100000000 = some (.txReq 0x11) := by decide

/-- The columns of spec/opcode_table.json, rows 1 to 12. -/
theorem test_table_response_rows :
    (responseRows Config.reference).map (fun r => (r.pattern.toNat, r.mask.toNat))
      = [0x00, 0x01, 0x02, 0x03, 0x04, 0x05, 0x06, 0x07, 0x08, 0x09, 0x11, 0x14].map
          (fun t => (0x010000000000072B0000000000000000 + t * 2 ^ 32, 0xFFFF0000FFFFFFFF000000FF00000000)) := by decide
/-- The columns of spec/opcode_table.json, rows 13 to 23. -/
theorem test_table_other_rows :
    (otherRows Config.reference).map (fun r => (r.pattern, r.mask))
      = [(0x010000000000072B0000000000000000, 0xFFFF0000FFFFFFFF0000000000000000),
         (0x01000000000000000000000000000000, 0xFFFF0000000000000000000000000000),
         (0x01010000000000000000000000000000, 0xFFFF0000000000000000000000000000),
         (0x01110000000000000000000000000000, 0xFFFF0000000000000000000000000000),
         (0x01100000000000000000000000000000, 0xFFFF0000000000000000000000000000),
         (0x02000000000000000000000000000000, 0xFFF00000000000000000000000000000),
         (0x02100000000000000000000000000000, 0xFFF00000000000000000000000000000),
         (0x03000000000000000000000000000000, 0xFF000000000000000000000000000000),
         (0x04000000000000000000000000000000, 0xFF000000000000000000000000000000),
         (0x05000000000000000000000000000000, 0xFF000000000000000000000000000000),
         (0x80000800000007230322D90000000000, 0xFFFFFFFFFFFFFFFFFFFFFF00FFFFFFFF)] := by decide
/-- RX_TAG_OTHER's own match value has tag 0x00, so the first row it matches is row 1 (R85). -/
theorem test_first_row_wins : firstRow Config.reference 0x010000000000072B0000000000000000 = some "RX_CELL0" := by decide
/-- The host's entry points agree: the table word of TICK_DS decodes and runs first after reset. -/
theorem test_table_word : decodeTableWord 128 0x02100000000000000000000000000000 = some .tickDs := by decide
theorem test_fetch_word :
    after (step (State.reset.withFetchWord 128 0x02100000000000000000000000000000))
      = some { State.reset with tDs := true } := by decide

/-! ## One step each -/

/-- V41-1. -/
theorem test_step_cell0 :
    ran 0x010008000000072B000000000FA00000 launch
      = some ({ launch with cell := launch.cell.set 0 4000, lastIdx := 0, rxLog := [.update] }) := by decide
/-- V41-2. -/
theorem test_step_cell1 :
    ran 0x010008000000072B000000010F3C0000 launch
      = some ({ launch with cell := launch.cell.set 1 3900, lastIdx := 1, rxLog := [.update] }) := by decide
/-- V41-3. -/
theorem test_step_cell2 :
    ran 0x010008000000072B000000020ED80000 launch
      = some ({ launch with cell := launch.cell.set 2 3800, lastIdx := 2, rxLog := [.update] }) := by decide
/-- V41-4. -/
theorem test_step_cell3 :
    ran 0x010008000000072B000000030E740000 launch
      = some ({ launch with cell := launch.cell.set 3 3700, lastIdx := 3, rxLog := [.update] }) := by decide
/-- V41-5. -/
theorem test_step_cell4 :
    ran 0x010008000000072B000000040E100000 launch
      = some ({ launch with cell := launch.cell.set 4 3600, lastIdx := 4, rxLog := [.update] }) := by decide
/-- V41-6. -/
theorem test_step_cell5 :
    ran 0x010008000000072B000000050DAC0000 launch
      = some ({ launch with cell := launch.cell.set 5 3500, lastIdx := 5, rxLog := [.update] }) := by decide
/-- V41-7. -/
theorem test_step_cell6 :
    ran 0x010008000000072B000000060D480000 launch
      = some ({ launch with cell := launch.cell.set 6 3400, lastIdx := 6, rxLog := [.update] }) := by decide
/-- V41-8. -/
theorem test_step_cell7 :
    ran 0x010008000000072B000000070CE40000 launch
      = some ({ launch with cell := launch.cell.set 7 3300, lastIdx := 7, rxLog := [.update] }) := by decide
/-- V41-9. -/
theorem test_step_cell8 :
    ran 0x010008000000072B000000080C800000 launch
      = some ({ launch with cell := launch.cell.set 8 3200, lastIdx := 8, rxLog := [.update] }) := by decide
/-- V41-11, first event. -/
theorem test_step_cell0_max :
    ran 0x010008000000072B00000000FFFF0000 launch
      = some ({ launch with cell := launch.cell.set 0 65535, lastIdx := 0, rxLog := [.update] }) := by decide
/-- V41-33. -/
theorem test_step_cell3_leading_bytes :
    ran 0x010008000000072B62D900030ED80000 launch
      = some ({ launch with cell := launch.cell.set 3 3800, lastIdx := 3, rxLog := [.update] }) := by decide
/-- V41-31. -/
theorem test_step_cell8_short :
    ran 0x010004000000072B037F22080C800000 launch
      = some ({ launch with cell := launch.cell.set 8 3200, lastIdx := 8, rxLog := [.update] }) := by decide
/-- V41-30. -/
theorem test_step_hv_remote :
    ran 0x010010000000072B000000099C400000 launch
      = some ({ launch with hv := 40000, lastIdx := 0x09, rxLog := [.update] }) := by decide
/-- V41-14. -/
theorem test_step_pdate_or :
    ran 0x010008000000072B0000001120190A1F launch
      = some ({ launch with pdate := 0x3F, lastIdx := 0x11, rxLog := [.update] }) := by decide
/-- V41-16 with PDATE_MODE = BE32. -/
theorem test_step_pdate_be32 :
    ran 0x010008000000072B0000001180402001 (State.launch be32)
      = some ({ State.launch be32 with pdate := 0x80402001, lastIdx := 0x11, rxLog := [.update] }) := by decide
/-- V41-13. -/
theorem test_step_soc_cursor_10 :
    ran 0x010008000000072B0000001403E80000 ({ launch with cursor := 10, pdf := true })
      = some ({ launch with cursor := 10, pdf := true, soc := 1000, lastIdx := 0x14, rxLog := [.update] }) := by decide
/-- V41-32. -/
theorem test_step_soc_alias :
    ran 0x010008000000072B037F2214AABB0000 launch
      = some ({ launch with soc := 43707, lastIdx := 0x14, rxLog := [.update] }) := by decide
/-- V41-18. -/
theorem test_step_tag_other :
    ran 0x010008000000072B0000000A12340000 ({ launch with lastIdx := 7 })
      = some ({ launch with lastIdx := 7, rxLog := [.ignoredTag] }) := by decide
/-- V41-23 with the counter. -/
theorem test_step_tag_other_ff :
    ran 0x010008000000072B000000FF01020000 (State.launch counting)
      = some ({ State.launch counting with rxLog := [.ignoredTag] }) := by decide
/-- V41-24. -/
theorem test_step_id_mismatch :
    ran 0x010008000000072A000000010F3C0000 launch
      = some ({ launch with rxLog := [.discardId] }) := by decide
/-- V60-4. -/
theorem test_step_id_mismatch_wraps :
    ran 0x010008000000072A000000010F3C0000 ({ State.launch counting with discardCtr := 0xFFFFFFFF })
      = some ({ State.launch counting with discardCtr := 0, rxLog := [.discardId] }) := by decide
/-- V41-27 with the counter. -/
theorem test_step_ext_q0 :
    ran 0x010108000000072B0000001400320000 (State.launch counting)
      = some ({ State.launch counting with discardCtr := 1, rxLog := [.discardType] }) := by decide
/-- V41-28 with the counter. -/
theorem test_step_ext_q1 :
    ran 0x0111080018DAF110000000020ED80000 (State.launch counting)
      = some ({ State.launch counting with rxLog := [.placeholder] }) := by decide
/-- V41-29. -/
theorem test_step_std_q1_discard :
    ran 0x011008000000072B000000030E740000 (State.launch counting)
      = some ({ State.launch counting with discardCtr := 1, rxLog := [.discardType] }) := by decide
/-- V41-29 with Q1_STD_POLICY = DECODE. -/
theorem test_step_std_q1_decode :
    ran 0x011008000000072B000000030E740000 (State.launch decodeQ1)
      = some ({ State.launch decodeQ1 with cell := launch.cell.set 3 3700, lastIdx := 3, rxLog := [.update] }) := by decide
/-- V40-1. -/
theorem test_step_tick_ms :
    ran 0x02000000000000000000000000000000 launch
      = some ({ launch with tMs := true }) := by decide
/-- V40-2. -/
theorem test_step_tick_ds :
    ran 0x02100000000000000000000000000000 ({ launch with tDs := true })
      = some (launch) := by decide
/-- V40-3. -/
theorem test_step_loop_edge :
    ran 0x03000000000000000000000000000000 ({ launch with tDs := true })
      = some (pollAt 1 false { launch with tDs := true, lDs := true, psm := .armed }) := by decide
/-- V40-4. -/
theorem test_step_loop_no_edge :
    ran 0x03000000000000000000000000000000 ({ launch with tDs := true, lDs := true })
      = some ({ launch with tDs := true, lDs := true, psm := .armed }) := by decide
/-- V40-7. -/
theorem test_step_loop_other_gran :
    ran 0x03000000000000000000000000000000 ({ launch with tMs := true })
      = some ({ launch with tMs := true, lMs := true, psm := .armed }) := by decide
/-- V40-8. -/
theorem test_step_loop_gate_fires_in_the_counting_pass :
    ran 0x03000000000000000000000000000000 (pollAt 9 false { launch with psm := .armed, tDs := true })
      = some (pollAt 10 true { launch with psm := .requesting, tDs := true, lDs := true }) := by decide
/-- V40-10. -/
theorem test_step_loop_holds_at_ceil :
    ran 0x03000000000000000000000000000000 (withSlot 0 ⟨10000, true, true, .ds, 0⟩ { launch with tDs := true })
      = some (withSlot 0 ⟨10000, true, true, .ds, 0⟩ (pollAt 1 false { launch with tDs := true, lDs := true, psm := .armed })) := by decide
/-- R8, R124: with CNT_W = 17 and CEIL = 100000 a counter passes 65535. -/
theorem test_step_loop_counter_of_17_bits :
    (ran 0x03000000000000000000000000000000
      (withSlot 0 ⟨65535, false, true, .ds, 0⟩
        { State.launch { Config.reference with cntW := 17, ceil := 100000 } with tDs := true })).map
          (fun t => t.slots[0].cnt.toNat) = some 65536 := by decide
/-- V40-16. -/
theorem test_step_loop_not_reached :
    ran 0x03000000000000000000000000000000 (pollAt 9 false { launch with psm := .armed })
      = some (pollAt 9 false { launch with psm := .armed }) := by decide
/-- V43-5. -/
theorem test_step_loop_request :
    ran 0x03000000000000000000000000000000 (pollAt 10 true { launch with psm := .requesting, cursor := 3 })
      = some ({ launch with psm := .cooldown, cursor := 4, redraw := true, txLog := [requestFor 3] }) := by decide
/-- V43-7. -/
theorem test_step_loop_request_pdate :
    ran 0x03000000000000000000000000000000 ({ launch with psm := .requesting, cursor := 10 })
      = some ({ launch with psm := .cooldown, cursor := 0, pdf := true, redraw := true, txLog := [requestFor 0x11] }) := by decide
/-- V43-8. -/
theorem test_step_loop_request_soc :
    ran 0x03000000000000000000000000000000 ({ launch with psm := .requesting, cursor := 10, pdf := true })
      = some ({ launch with psm := .cooldown, cursor := 0, pdf := true, redraw := true, txLog := [requestFor 0x14] }) := by decide
/-- V43-10. -/
theorem test_step_loop_request_rearms_gran :
    ran 0x03000000000000000000000000000000 (withSlot 1 ⟨10, false, true, .ms, 10⟩ { launch with psm := .requesting, cursor := 9 })
      = some ({ launch with psm := .cooldown, cursor := 10, redraw := true, txLog := [requestFor 9] }) := by decide
/-- V43-11. -/
theorem test_step_loop_cooldown :
    ran 0x03000000000000000000000000000000 ({ launch with psm := .cooldown })
      = some (launch) := by decide
/-- V43-14. -/
theorem test_step_loop_cursor_11 :
    ran 0x03000000000000000000000000000000 ({ launch with psm := .requesting, cursor := 11 })
      = some ({ launch with psm := .requesting, cursor := 11, fault := .cursorOutOfRange }) := by decide
/-- V40-15. -/
theorem test_step_treset_poll :
    ran 0x04110000000000000000000000000000 (pollAt 10 true launch)
      = some (launch) := by decide
/-- V40-14. -/
theorem test_step_treset_ms :
    ran 0x04010000000000000000000000000000 (pollAt 7 false launch)
      = some (withSlot 1 ⟨0, false, true, .ms, 10⟩ launch) := by decide
/-- V43-12. -/
theorem test_step_ack :
    ran 0x05000000000000000000000000000000 ({ launch with redraw := true })
      = some (launch) := by decide
/-- V30-22. -/
theorem test_step_tx_record_refused :
    ran 0x80000800000007230322D90000000000 launch
      = some ({ launch with fault := .refusedStimulus }) := by decide

/-! ## Reset, the read port, the frame, the assembler -/

/-- V70-1. -/
theorem test_reset_poll_slot : State.reset.slots[1] = ⟨0, false, false, .ms, 10⟩ := by decide
theorem test_reset_other_slot : State.reset.slots[9] = ⟨0, false, false, .ms, 0⟩ := by decide
/-- The launch state of spec/95_test_vectors.md. -/
theorem test_launch_poll_slot : launch.slots[1] = ⟨0, false, true, .ds, 10⟩ := by decide
/-- The codes of 60_exceptions.md R241 and 10_state.md R29. -/
theorem test_codes :
    [RxOutcome.update, .ignoredTag, .discardId, .discardType, .placeholder].map RxOutcome.code = [0, 1, 2, 3, 4] ∧
      [Psm.idle, .armed, .requesting, .cooldown].map Psm.code = [0, 1, 2, 3] := by decide
/-- V42-4. -/
theorem test_tx_record :
    frameRecord (encodeRequest Config.reference 0x14) = 0x80000800000007230322D91400000000 := by decide
/-- The listing of V41-30 (R91). -/
theorem test_listing :
    listing 0x010010000000072B000000099C400000
      = some (.rx (some 0) (some 0) (some 1) (some 0) 0x72B ⟨0, 0, 0, 9, 0x9C, 0x40, 0, 0⟩) := by decide
/-- P2: CYCLE is 13 LOOP and 10 TICK ds. -/
theorem test_cycle_words :
    (assembleAll (cycleLines Config.reference)).count 0x03000000000000000000000000000000 = 13 ∧
      (assembleAll (cycleLines Config.reference)).count 0x02100000000000000000000000000000 = 10 := by decide

/-- 95_test_vectors.md P1, four lines and their words, with the comments. -/
theorem test_text_of_frames :
    assembleText Config.reference
        "RESP   0x00, 0x0F, 0xA0      ; 0x010008000000072B000000000FA00000  UPDATE\nRESP32 0x11, 0x20, 0x19, 0x0A, 0x1F\nRX q=1 ide=1 id=0x18DAF110 data=00 00 00 02 0E D8 00 00  ; PLACEHOLDER\n\nRX rtr=1 dlc=0 id=0x72B data=00 00 00 09 9C 40 00 00\n"
      = some [0x010008000000072B000000000FA00000, 0x010008000000072B0000001120190A1F,
          0x0111080018DAF110000000020ED80000, 0x010010000000072B000000099C400000] := by decide +kernel

/-- 95_test_vectors.md P5: events and pseudo-instructions; CYCLE is P2's text of it. -/
theorem test_text_of_events :
    assembleText Config.reference "ACK\nTRESET 1, ms\nSTEPS ds, 2\nSTEP ms"
        = some [0x05000000000000000000000000000000, 0x04010000000000000000000000000000,
            0x02100000000000000000000000000000, 0x03000000000000000000000000000000,
            0x02100000000000000000000000000000, 0x03000000000000000000000000000000,
            0x02000000000000000000000000000000, 0x03000000000000000000000000000000] ∧
      assembleText Config.reference "CYCLE" = assembleText Config.reference "LOOP\nSTEPS ds, 10\nLOOP\nLOOP" := by
  decide +kernel

/-- 30_encoding.md R91: operands outside the syntax, a missing byte, an unknown name. -/
theorem test_text_outside_the_syntax :
    assembleText Config.reference "RX ide=2 id=0x72B data=00 00 00 02 0E D8 00 00" = none ∧
      assembleText Config.reference "RX dlc=9 id=0x72B data=00 00 00 02 0E D8 00 00" = none ∧
      assembleText Config.reference "RX id=0x72B data=00 00 00 02 0E D8 00" = none ∧
      assembleText Config.reference "TICK us" = none ∧ assembleText Config.reference "NOP" = none := by decide +kernel

/-- 95_test_vectors.md P1's ninth frame and 30_encoding.md R93's TRESET, printed. -/
theorem test_text_of_listings :
    listingText 0x010010000000072B000000099C400000
        = some "RX q=0 ide=0 rtr=1 dlc=0 id=0x72B data=00 00 00 09 9C 40 00 00" ∧
      listingText 0x04110000000000000000000000000000 = some "TRESET 1, ds" := by decide +kernel

/-! ## Witnesses: a concrete case that meets the hypotheses of each statement -/

/-- A state with the word of V41-1 to come. -/
def withCell0 : State := { launch with stim := [0x010008000000072B000000000FA00000] }

theorem wit_StepRunsTheDecodedInstruction :
    ∃ (s : State) (w : Sw) (rest : List Sw) (i : Instr), s.fault = .none ∧ s.cfg.legal = true ∧ s.stim = w :: rest ∧
      decode s.cfg w = .ok i :=
  ⟨withCell0, 0x010008000000072B000000000FA00000, [], .rxCell0 ⟨false, 8, 0, 0, 0, 0x0F, 0xA0, 0, 0⟩,
    by decide, by decide, rfl, ok_of_decoded (by decide)⟩

/-- V30-20 as the next word; and words that fail each of the other checks: V30-23 to 30, and the two no vector has. -/
theorem wit_RefusedWordSetsOnlyTheFaultMark :
    ∃ s : State, s.fault = .none ∧ s.cfg.legal = true ∧ s.stim = 0x00000000000000000000000000000000 :: [] ∧
      ¬ PassesChecks 0x00000000000000000000000000000000 ∧ ¬ PassesChecks 0x012008000000072B0000000000000000 ∧
      ¬ PassesChecks 0x010009000000072B0000000000000000 ∧ ¬ PassesChecks 0x01000800000008000000000000000000 ∧
      ¬ PassesChecks 0x01010800200000000000000000000000 ∧ ¬ PassesChecks 0x010008010000072B0000000000000000 ∧
      ¬ PassesChecks 0x02200000000000000000000000000000 ∧ ¬ PassesChecks 0x041A0000000000000000000000000000 ∧
      ¬ PassesChecks 0x03000000000000000000000000000001 ∧ ¬ PassesChecks 0x010208000000072B0000000000000000 ∧
      ¬ PassesChecks 0x010028000000072B0000000000000000 :=
  ⟨{ launch with stim := [0] }, by decide, by decide, rfl, fails (by decide), fails (by decide), fails (by decide), fails (by decide), fails (by decide),
    fails (by decide), fails (by decide), fails (by decide), fails (by decide), fails (by decide), fails (by decide)⟩

/-- Admitted words at the bounds: DLC 8 and 0, the largest identifiers, slot 9, g 1. -/
theorem wit_PassesChecks :
    PassesChecks 0x010018000000072B000000000FA00000 ∧ PassesChecks 0x01000000000007FF0000000000000000 ∧
      PassesChecks 0x011118001FFFFFFFFFFFFFFFFFFFFFFF ∧ PassesChecks 0x04190000000000000000000000000000 ∧
      PassesChecks 0x02100000000000000000000000000000 ∧ PassesChecks 0x03000000000000000000000000000000 ∧
      PassesChecks 0x05000000000000000000000000000000 :=
  ⟨passes (by decide), passes (by decide), passes (by decide), passes (by decide), passes (by decide),
    passes (by decide), passes (by decide)⟩

theorem inv_launch : Inv launch where
  legal := by decide
  cursor_le := by decide
  cnt_le := by decide
  expired_iff := by decide
  pdf_iff := by decide
  pdate_lt := by decide
  poll_period := by decide
  no_cursor_fault := by decide

/-- A state in mid-run: TAG_PDATE sent, the poll slot at its period, a slot at the ceiling, the largest OR date. -/
def busy : State :=
  withSlot 0 ⟨10000, true, true, .ms, 10000⟩ (pollAt 10 true
    { launch with
      psm := .requesting, cursor := 10, pdf := true, pdate := 0xFF, tMs := true
      txLog := [requestFor 0x11] })

theorem inv_busy : Inv busy where
  legal := by decide
  cursor_le := by decide
  cnt_le := by decide
  expired_iff := by decide
  pdf_iff := by decide
  pdate_lt := by decide
  poll_period := by decide
  no_cursor_fault := by decide

theorem inv_stim {s : State} (h : Inv s) (l : List Sw) : Inv { s with stim := l } :=
  ⟨h.legal, h.cursor_le, h.cnt_le, h.expired_iff, h.pdf_iff, h.pdate_lt, h.poll_period, h.no_cursor_fault⟩

theorem wit_EveryAdmittedEventCompletes :
    ∃ (s : State) (w : Sw) (rest : List Sw), Inv s ∧ s.fault = .none ∧ s.stim = w :: rest ∧ PassesChecks w :=
  ⟨{ busy with stim := [loopWord] }, loopWord, [], inv_stim inv_busy _, by decide, rfl, passes (by decide)⟩

theorem wit_FirstMatchingRowSelectsTheEvent : ∃ w, PassesChecks w := ⟨0x04190000000000000000000000000000, passes (by decide)⟩

/-- Both clauses. -/
theorem wit_ListingOfAWordEncodesToIt :
    PassesChecks 0x010018000000072B000000000FA00000 ∧ ¬ PassesChecks 0x041A0000000000000000000000000000 :=
  ⟨passes (by decide), fails (by decide)⟩

/-- 95_test_vectors.md P1 (its ninth line) and a slot that fails WF_SLOT. -/
theorem wit_TextOfAListingAssemblesToItsWord :
    PassesChecks 0x010010000000072B000000099C400000 ∧ ¬ PassesChecks 0x041A0000000000000000000000000000 :=
  ⟨passes (by decide), fails (by decide)⟩

theorem wit_EveryStepKeepsTheInvariants :
    ∃ t, Inv { busy with stim := [loopWord] } ∧ step { busy with stim := [loopWord] } = .next t ∧ t.cursor = 0 :=
  ⟨_, inv_stim inv_busy _, rfl, by decide⟩

/-- A slot at the ceiling. -/
theorem wit_TickCountersKeepTheirWidth :
    ∃ t, Inv { busy with stim := [loopWord] } ∧ step { busy with stim := [loopWord] } = .next t ∧
      t.slots[0].cnt = 10000 :=
  ⟨_, inv_stim inv_busy _, rfl, by decide⟩

theorem wit_EveryFrameSentIsARequestForAPolledIndex :
    ∃ t, SentOnlyRequests { busy with stim := [loopWord] } ∧ step { busy with stim := [loopWord] } = .next t ∧
      t.txLog.length = 2 := by
  refine ⟨_, fun f hf => ⟨0x11, by decide, ?_⟩, rfl, by decide⟩
  have e : f = requestFor 0x11 := List.mem_singleton.1 hf
  rw [e]; decide

/-- One case for each clause. -/
theorem wit_FaultedStateTakesNoFurtherStep :
    faultOf (step { launch with fault := .refusedStimulus }) = some .refusedStimulus ∧
      faultOf (step { launch with fault := .cursorOutOfRange }) = some .cursorOutOfRange ∧
      after (step launch) = some launch := by decide

/-- Both sides of the equivalence: a constraint of R9 broken, POLL_SLOT not below NSLOTS, and a count that is not the rules'. -/
theorem wit_ConfigurationOutsideTheConstraintsIsRefused :
    refusalOf (step { launch with cfg := { Config.reference with pPoll := 0 } }) = some .illegalConfiguration ∧
      ¬ R9Holds { Config.reference with pPoll := 0 } ∧ refusalOf (step launch) = none ∧ R9Holds Config.reference ∧
      refusalOf (step { launch with cfg := { Config.reference with numSlots := 1 } }) = some .illegalConfiguration ∧
      ¬ R9Holds { Config.reference with numSlots := 1 } ∧
      refusalOf (step { launch with cfg := { Config.reference with numCells := 8 } }) = some .illegalConfiguration ∧
      R9Holds { Config.reference with numCells := 8 } := by
  simp only [r9Holds_iff]; decide

theorem wit_DecodeOfEncodeIsTheInstruction :
    Config.legal decodeQ1 = true ∧ Instr.wf decodeQ1 (.rxTagOther 0x0A ⟨true, 0, 1, 2, 3, 4, 5, 6, 7⟩) = true ∧
      Instr.wf decodeQ1 (.rxIdMismatch 0x7FF ⟨true, 8, ⟨1, 2, 3, 4, 5, 6, 7, 8⟩⟩) = true ∧
      Instr.wf decodeQ1 (.rxExtQ1 0x1FFFFFFF ⟨true, 8, ⟨1, 2, 3, 4, 5, 6, 7, 8⟩⟩) = true ∧
      Instr.wf decodeQ1 (.treset 9 .ds) = true := by decide

theorem wit_EncodeOfDecodeIsTheWord :
    decode Config.reference 0x04190000000000000000000000000000 = .ok (.treset 9 .ds) := ok_of_decoded (by decide)

/-- The three clauses. -/
theorem wit_SecondaryQueueStandardFrameFollowsThePolicy :
    launch.cfg.legal = true ∧ launch.cfg.q1StdPolicy = .discard ∧ (State.launch decodeQ1).cfg.legal = true ∧
      (State.launch decodeQ1).cfg.q1StdPolicy = .decode ∧ (State.launch decodeQ1).cfg.respId = 0x72B ∧
      (0x72A : StdId) ≠ (State.launch decodeQ1).cfg.respId := by decide

theorem wit_VoltageAndChargeResponsesWriteTheirRegister : launch.cfg.legal = true := by decide

/-- Both modes. -/
theorem wit_ProductionDateResponseFollowsItsMode :
    launch.cfg.legal = true ∧ (State.launch be32).cfg.legal = true ∧ launch.cfg.pdateMode = .bitOr ∧ (State.launch be32).cfg.pdateMode = .be32 := by decide

theorem wit_OpcodeRowsAgreeWithTheClassification :
    ∃ (s : State) (w : Sw) (rest : List Sw), s.fault = .none ∧ s.cfg.legal = true ∧ s.stim = w :: rest ∧
      PassesChecks w ∧ w.extractLsb 127 120 = 0x01#8 :=
  ⟨withCell0, 0x010008000000072B000000000FA00000, [], by decide, by decide, rfl, passes (by decide), by decide⟩

/-- An update and a discard. -/
theorem wit_OutcomeSaysWhichRegistersAreWritten :
    ∃ t u, Instr.eventClass (.rxHv ⟨false, 8, 0, 0, 0, 1, 2, 0, 0⟩) = .rx ∧
      exec (.rxHv ⟨false, 8, 0, 0, 0, 1, 2, 0, 0⟩) launch = .next t ∧ t.rxLog = [.update] ∧
      exec (.rxExtQ0 0x72B ⟨false, 8, ⟨0, 0, 0, 0, 0, 0, 0, 0⟩⟩) (State.launch counting) = .next u ∧
      u.discardCtr = 1 := ⟨_, _, rfl, rfl, rfl, rfl, rfl⟩

/-- A case of each disjunct: a cell, HV, SOC, the date, nothing. -/
theorem wit_ReceiveEventWritesAtMostOneValueField :
    ∃ t u v x y, exec (.rxCell8 ⟨false, 8, 0, 0, 0, 1, 2, 0, 0⟩) launch = .next t ∧ t.lastIdx = 8 ∧
      exec (.rxHv ⟨false, 8, 0, 0, 0, 1, 2, 0, 0⟩) launch = .next u ∧ u.lastIdx = 9 ∧
      exec (.rxSoc ⟨false, 8, 0, 0, 0, 1, 2, 0, 0⟩) launch = .next v ∧ v.lastIdx = 0x14 ∧
      exec (.rxPdate ⟨false, 8, 0, 0, 0, 1, 2, 0, 0⟩) launch = .next x ∧ x.lastIdx = 0x11 ∧
      exec (.rxTagOther 0x0A ⟨false, 8, 0, 0, 0, 1, 2, 0, 0⟩) launch = .next y ∧ y.lastIdx = 0 :=
  ⟨_, _, _, _, _, rfl, rfl, rfl, rfl, rfl, rfl, rfl, rfl, rfl, rfl⟩

/-- V41-31 beside the same word with RTR 1, DLC 8 and other leading bytes. -/
theorem wit_RtrDlcAndLeadingBytesAreNotRead :
    PassesChecks 0x010004000000072B037F22080C800000 ∧ PassesChecks 0x010018000000072B000000080C800000 ∧
      (0x010004000000072B037F22080C800000 : Sw).extractLsb 127 120 = 0x01#8 ∧
      (0x010004000000072B037F22080C800000 : Sw).extractLsb 127 112
        = (0x010018000000072B000000080C800000 : Sw).extractLsb 127 112 ∧
      (0x010004000000072B037F22080C800000 : Sw).extractLsb 95 64
        = (0x010018000000072B000000080C800000 : Sw).extractLsb 95 64 ∧
      (0x010004000000072B037F22080C800000 : Sw).extractLsb 39 0
        = (0x010018000000072B000000080C800000 : Sw).extractLsb 39 0 := by
  simp only [passesChecks_iff]; decide

theorem wit_ReceiveCommutesWithEveryOtherEvent :
    Instr.eventClass (.rxHv ⟨false, 8, 0, 0, 0, 1, 2, 0, 0⟩) = .rx ∧ Instr.eventClass .loop ≠ .rx := by decide

/-- V41-26. -/
theorem wit_LoopedBackRequestIsDiscarded :
    ∃ s : State, s.fault = .none ∧ s.cfg.legal = true ∧ s.stim = 0x01000800000007230322D90000000000 :: [] ∧
      encodeRx 0 0 false 8 (s.cfg.reqId.setWidth 32) (encodeRequest s.cfg 0).data
        = 0x01000800000007230322D90000000000 :=
  ⟨{ launch with stim := [0x01000800000007230322D90000000000] }, by decide, by decide, rfl, by decide⟩

theorem wit_FilteredFrameIsNeverDiscarded :
    launch.cfg.filterFifo = .primary ∧ launch.cfg.filterIde = true ∧
      filterPresents launch.cfg ⟨.primary, ⟨.std 0x72B, false, 8, ⟨0, 0, 0, 0, 1, 2, 0, 0⟩⟩⟩ = true := by decide

/-- The reference configuration with a filter that compares the identifier only, on either queue. -/
def anyIde (q : Queue) : Config := { Config.reference with filterFifo := q, filterIde := false }

/-- A remote frame, an extended frame on either queue, and a standard frame on queue 1, each presented by some setting. -/
theorem wit_FilterSettingDecidesWhichFramesArrive :
    filterPresents launch.cfg ⟨.primary, ⟨.std 0x72B, true, 8, ⟨0, 0, 0, 0, 1, 2, 0, 0⟩⟩⟩ = true ∧
      (demux ⟨.primary, ⟨.std 0x72B, true, 8, ⟨0, 0, 0, 0, 1, 2, 0, 0⟩⟩⟩ launch).1 = .update ∧
      filterPresents (anyIde .primary) ⟨.primary, ⟨.ext 0x72B, false, 8, ⟨0, 0, 0, 0, 1, 2, 0, 0⟩⟩⟩ = true ∧
      (demux ⟨.primary, ⟨.ext 0x72B, false, 8, ⟨0, 0, 0, 0, 1, 2, 0, 0⟩⟩⟩ (State.launch (anyIde .primary))).1
        = .discardType ∧
      filterPresents (anyIde .secondary) ⟨.secondary, ⟨.ext 0x72B, false, 8, ⟨0, 0, 0, 0, 1, 2, 0, 0⟩⟩⟩ = true ∧
      (demux ⟨.secondary, ⟨.ext 0x72B, false, 8, ⟨0, 0, 0, 0, 1, 2, 0, 0⟩⟩⟩ (State.launch (anyIde .secondary))).1
        = .placeholder ∧
      filterPresents (anyIde .secondary) ⟨.secondary, ⟨.std 0x72B, false, 8, ⟨0, 0, 0, 0, 1, 2, 0, 0⟩⟩⟩ = true ∧
      (demux ⟨.secondary, ⟨.std 0x72B, false, 8, ⟨0, 0, 0, 0, 1, 2, 0, 0⟩⟩⟩ (State.launch (anyIde .secondary))).1
        = .discardType := by decide

/-- R254, I4: the reference filter drops an extended frame and another identifier; one that compares RTR drops a remote
frame. -/
theorem test_filter_drops :
    filterPasses Config.reference ⟨.ext 0x72B, false, 8, ⟨0, 0, 0, 0, 1, 2, 0, 0⟩⟩ = false ∧
      filterPasses Config.reference ⟨.std 0x72A, false, 8, ⟨0, 0, 0, 0, 1, 2, 0, 0⟩⟩ = false ∧
      filterPasses { Config.reference with filterRtr := true } ⟨.std 0x72B, true, 8, ⟨0, 0, 0, 0, 1, 2, 0, 0⟩⟩
        = false := by decide

/-- Counting and idle slots of one pass: at 9999, at the ceiling, in the other granularity, not running; the poll slot in
a pass that is not REQUESTING. -/
def fourSlots : State :=
  withSlot 0 ⟨9999, false, true, .ds, 10000⟩ (withSlot 2 ⟨10000, true, true, .ds, 10000⟩
    (withSlot 3 ⟨5, false, true, .ms, 10⟩ { launch with tDs := true }))

theorem wit_LoopCountsOneTickPerEdge :
    ∃ t, exec .loop fourSlots = .next t ∧ t.slots[0] = ⟨10000, true, true, .ds, 10000⟩ ∧
      t.slots[1].cnt = 1 ∧ t.slots[2].cnt = 10000 ∧ t.slots[3] = fourSlots.slots[3] ∧
      t.slots[4] = fourSlots.slots[4] ∧ fourSlots.psm ≠ .requesting ∧ 2 < fourSlots.cfg.numSlots.val :=
  ⟨_, rfl, by decide, by decide, by decide, by decide, by decide, by decide, by decide⟩

/-- R123: with NSLOTS = 2 a tick reaches slots 0 and 1 and not slot 2. -/
theorem test_step_loop_counts_below_nslots :
    (ran 0x03000000000000000000000000000000
      (withSlot 2 ⟨5, false, true, .ds, 0⟩
        { State.launch { Config.reference with numSlots := 2 } with tDs := true })).map
          (fun t => (t.slots[1].cnt.toNat, t.slots[2].cnt.toNat)) = some (1, 5) := by decide

/-- Rises, stays, and the two resets. -/
theorem wit_CounterDecreasesOnlyOnReset :
    ∃ t u v, (∀ j : Fin nSlots, fourSlots.slots[j].cnt.toNat ≤ fourSlots.cfg.ceil.toNat) ∧
      exec .loop fourSlots = .next t ∧ t.slots[0].cnt = 10000 ∧ t.slots[4].cnt = 0 ∧
      exec (.treset 2 .ms) fourSlots = .next u ∧ u.slots[2].cnt = 0 ∧
      busy.slots[1].cnt = 10 ∧ exec .loop busy = .next v ∧ v.slots[1].cnt = 0 :=
  ⟨_, _, _, by decide, rfl, by decide, by decide, rfl, by decide, by decide, rfl, by decide⟩

/-- Odd and even: V40-6 and V40-5. -/
theorem wit_MissedEdgesCountByParity :
    ∀ k ∈ [2, 3], ∃ s : State, s.fault = .none ∧ s.cfg.legal = true ∧ toggleFlag .ds s = sampledLevel .ds s ∧
      s.stim = List.replicate k (tickWord .ds) ++ loopWord :: [] ∧
      1 < s.cfg.numSlots.val ∧ s.slots[1].run = true ∧ s.slots[1].gran = .ds ∧ s.psm ≠ .requesting :=
  fun k _ => ⟨{ launch with stim := List.replicate k (tickWord .ds) ++ loopWord :: [] },
    rfl, (by decide : launch.cfg.legal = true), (by decide : toggleFlag .ds launch = sampledLevel .ds launch), rfl,
    (by decide : 1 < launch.cfg.numSlots.val), (by decide : launch.slots[1].run = true), (by decide : launch.slots[1].gran = .ds),
    (by decide : launch.psm ≠ .requesting)⟩

theorem wit_FirstLoopAfterBootCountsTheParity :
    Config.legal Config.reference = true ∧ ([Gran.ds] ++ [Gran.ms]).count Config.reference.gPoll % 2 = 1 ∧
      ([Gran.ds] ++ [Gran.ms, Gran.ds]).count Config.reference.gPoll % 2 = 0 := by decide

/-- V70-2: a schedule that keeps the boot order, and its run. -/
theorem wit_BootedPollSlotKeepsRunning :
    BootsFirst Config.reference [tickWord .ds, tresetWord 1 .ds, loopWord] ∧
      ∃ t, runSteps 3 { State.reset with stim := [tickWord .ds, tresetWord 1 .ds, loopWord] } = .next t ∧
        (t.slots[1].cnt == 1 && t.lDs && decide (t.psm = .armed)) = true :=
  ⟨⟨[.ds], [loopWord], rfl⟩, exists_next (fun t => t.slots[1].cnt == 1 && t.lDs && decide (t.psm = .armed)) (by decide +kernel)⟩

/-- IDLE, ARMED at 9 (V43-2) and at 10 (V43-3), COOLDOWN. -/
theorem wit_LoopTakesOneTransition :
    launch.psm = .idle ∧ (pollAt 9 false { launch with psm := .armed }).psm = .armed ∧
      (pollAt 9 false { launch with psm := .armed }).slots[1].cnt.toNat = 9 ∧
      (pollAt 10 true { launch with psm := .armed }).psm = .armed ∧
      (pollAt 10 true { launch with psm := .armed }).slots[1].cnt.toNat = 10 ∧
      ({ launch with psm := .cooldown } : State).psm = .cooldown := by decide

/-- Cursors 0, 9 and 10. -/
theorem wit_RequestingPassSendsOneRequest :
    ∀ c ∈ ([0, 9, 10] : List (BitVec 4)),
      ({ launch with psm := .requesting, cursor := c } : State).psm = .requesting ∧
        ({ launch with psm := .requesting, cursor := c } : State).cursor.toNat ≤ 10 := by decide

/-- V30-22. -/
theorem wit_TxRecordAsAnInputIsRefused :
    ∃ s : State, s.fault = .none ∧ s.cfg.legal = true ∧ s.stim = 0x80000800000007230322D90000000000 :: [] ∧
      frameRecord (encodeRequest s.cfg 0) = 0x80000800000007230322D90000000000 :=
  ⟨{ launch with stim := [0x80000800000007230322D90000000000] }, by decide, by decide, rfl, by decide⟩

/-- Cursors 11 and 15, with and without an edge. -/
theorem wit_CursorAboveTenOnlyMarksTheFault :
    ∃ s u : State, s.psm = .requesting ∧ 10 < s.cursor.toNat ∧ s.tMs = s.lMs ∧ s.tDs = s.lDs ∧
      u.psm = .requesting ∧ 10 < u.cursor.toNat ∧ u.tDs ≠ u.lDs :=
  ⟨{ launch with psm := .requesting, cursor := 11 }, { launch with psm := .requesting, cursor := 15, tDs := true },
    by decide, by decide, by decide, by decide, by decide, by decide, by decide⟩

theorem wit_ElevenRequestsGoRoundOnce : launch.cursor = 0 ∧ launch.pdf = false := by decide

/-- P2. -/
theorem wit_CycleSendsExactlyOneRequest :
    ∃ s : State, s.fault = .none ∧ s.cfg.legal = true ∧ s.cursor.toNat ≤ 10 ∧ s.psm = .idle ∧
      s.slots[s.cfg.pollSlot] = ⟨0, false, true, s.cfg.gPoll, s.cfg.pPoll⟩ ∧
      toggleFlag s.cfg.gPoll s = sampledLevel s.cfg.gPoll s ∧ s.stim = assembleAll (cycleLines s.cfg) ++ [] :=
  ⟨{ launch with stim := assembleAll (cycleLines launch.cfg) ++ [] },
    rfl, by decide, by decide, rfl, by decide, by decide, rfl⟩

/-- The state a request leaves, with P_POLL = 1 and the shortest schedule that sends the next request. -/
def afterRequest : State :=
  { State.launch period1 with
    psm := .cooldown
    stim := [loopWord, loopWord, tickWord .ds, loopWord, loopWord] }

theorem wit_NextRequestNeedsTheWholePeriod :
    afterRequest.fault = .none ∧ afterRequest.cfg.legal = true ∧ afterRequest.psm = .cooldown ∧
      afterRequest.slots[afterRequest.cfg.pollSlot] = ⟨0, false, true, afterRequest.cfg.gPoll, afterRequest.cfg.pPoll⟩ ∧
      (∀ w ∈ afterRequest.stim, w.extractLsb 127 120 ≠ 0x04#8) ∧
      ∃ t, runSteps 5 afterRequest = .next t ∧ (t.txLog != afterRequest.txLog) = true :=
  ⟨by decide, by decide, by decide, by decide,
    fun w hw => by
      simp only [afterRequest, List.mem_cons, List.not_mem_nil, or_false] at hw
      rcases hw with rfl | rfl | rfl | rfl | rfl <;> decide,
    exists_next (fun t => t.txLog != afterRequest.txLog) (by decide +kernel)⟩

/-- V40-16. -/
theorem wit_WithoutTicksThePollerWaits :
    ∃ s : State, s.fault = .none ∧ s.cfg.legal = true ∧ s.psm = .armed ∧ s.tMs = s.lMs ∧ s.tDs = s.lDs ∧
      s.slots[s.cfg.pollSlot].cnt.toNat < s.slots[s.cfg.pollSlot].period.toNat ∧ s.stim = [loopWord] ++ [] ∧
      ∀ w ∈ [loopWord], PassesChecks w ∧ w.extractLsb 127 120 ≠ 0x02#8 ∧ w.extractLsb 127 120 ≠ 0x04#8 :=
  ⟨{ pollAt 9 false { launch with psm := .armed } with stim := [loopWord] }, by decide, by decide, by decide, by decide,
    by decide, by decide, rfl, fun w hw => by
      rw [List.mem_singleton.1 hw]; exact ⟨passes (by decide), by decide, by decide⟩⟩

/-- A request with PDF set: cursor 10 sends TAG_SOC. -/
theorem wit_ProductionDateIsRequestedOnce :
    ∃ t, busy.cfg.legal = true ∧ busy.pdf = true ∧ exec .loop busy = .next t ∧ t.txLog.length = 2 :=
  ⟨_, by decide, by decide, rfl, by decide⟩

theorem wit_OnlyReceiveWritesTheReadings :
    ∃ t, Instr.eventClass .loop ≠ .rx ∧ exec .loop busy = .next t ∧ t.pdate = 0xFF :=
  ⟨_, by decide, rfl, by decide⟩

theorem wit_OnlyLoopMovesTheSequencer :
    ∃ t u, exec .tickMs busy = .next t ∧ t.tMs = false ∧ exec .loop busy = .next u ∧ u.txLog.length = 2 :=
  ⟨_, _, rfl, by decide, rfl, by decide⟩

theorem wit_TogglesAndRedrawHaveTheirWriters :
    ∃ t u, exec .ack { launch with redraw := true } = .next t ∧ t.redraw = false ∧
      exec .loop { launch with redraw := true } = .next u ∧ u.redraw = true :=
  ⟨_, _, rfl, by decide, rfl, by decide⟩

theorem wit_TimerSlotsHaveTheirWriters :
    ∃ t u, exec (.treset 3 .ms) launch = .next t ∧ t.slots[3].run = true ∧ exec .ack launch = .next u ∧
      u.slots = launch.slots :=
  ⟨_, _, rfl, by decide, rfl, rfl⟩

theorem wit_ResetMeetsTheInvariants : Config.legal Config.reference = true ∧ Config.legal be32 = true := by decide

/-- Both values of HAS_DISCARD_CTR, and an index above 0x0E. -/
theorem wit_ReadPortFollowsTheFieldIndex :
    (State.launch counting).cfg.hasDiscardCtr = true ∧ launch.cfg.hasDiscardCtr = false ∧
      0x0E < (0x0F : Byte).toNat := by decide

end Sys2Proof.Tests
end

/-! # Proofs: the configuration a step refuses, and the width of a tick counter (00_scope.md R8, R9) -/

namespace Sys2Proof.Machine

/-! ## What a step refuses -/

/-- A stimulus word always completes, admitted or not (30_encoding.md R84, 60_exceptions.md R240). -/
theorem runWord_completes (w : Sw) (s : State) : ∃ t, runWord w s = .next t := by
  rcases runWord_cases w s with ⟨i, -, e⟩ | ⟨r, -, e⟩
  · rw [e]; exact exec_completes i s
  · exact ⟨_, e⟩

/-- With a legal configuration and no fault mark a step answers a next state, whatever word comes. -/
theorem step_completes {s : State} (hf : s.fault = .none) (hl : s.cfg.legal = true) : ∃ t, step s = .next t := by
  cases hs : s.stim with
  | nil =>
    refine ⟨s, ?_⟩
    simp [step, (haltReason_none_iff s).2 hf, hl, fetch, hs]
  | cons w rest => rw [step_of_word hf hl hs]; exact runWord_completes w _

/-- The configuration check comes before the word is looked at. -/
theorem step_of_illegal {s : State} (hf : s.fault = .none) (hl : ¬ s.cfg.legal = true) :
    step s = .refused .illegalConfiguration := by
  simp [step, (haltReason_none_iff s).2 hf, hl]

/-- An unfaulted state's step refuses exactly an illegal configuration. -/
theorem step_refused_iff {s : State} (hf : s.fault = .none) :
    step s = .refused .illegalConfiguration ↔ ¬ s.cfg.legal = true := by
  refine ⟨fun h hl => ?_, step_of_illegal hf⟩
  obtain ⟨t, ht⟩ := step_completes hf hl
  rw [ht] at h
  cases h

/-! ## What an event does to a timer slot -/

/-- A row is one of the RX rows or one of the six others (30_encoding.md R90). -/
theorem instr_cases (i : Instr) :
    i.eventClass = .rx ∨ i = .tickMs ∨ i = .tickDs ∨ i = .loop ∨ (∃ k g, i = .treset k g) ∨ i = .ack ∨
      ∃ p, i = .txReq p := by
  cases i <;> simp [Instr.eventClass]

/-- No RX action touches the timer slots. -/
@[simp] theorem rxReturn_result_slots (x : RxAction) (s : State) : (rxReturn (x.result s)).slots = s.slots := by
  cases x with
  | discardId | discardType => simp [RxAction.result, rxReturn, discard_snd]
  | cell | hv | pdate | soc | ignored | placeholder => rfl

/-- All that one event can do to slot `j`: keep it, sample it in a LOOP pass, re-arm it by its TRESET, or sample and then
re-arm the poll slot in a REQUESTING pass (40_timer_service.md R122 to R127, 43_polling_fsm.md R216). -/
theorem exec_slot_cases {i : Instr} {s t : State} (h : exec i s = .next t) (j : Fin nSlots) :
    t.slots[j] = s.slots[j] ∨
    (i = .loop ∧ t.slots[j] = sampledSlot s j) ∨
    (∃ g, i = .treset j g ∧ t.slots[j] = s.slots[j].rearm g) ∨
    (i = .loop ∧ s.psm = .requesting ∧ j = s.cfg.pollSlot ∧ t.slots[j] = (sampledSlot s j).rearm s.cfg.gPoll) := by
  rcases instr_cases i with hrx | rfl | rfl | rfl | ⟨k, g, rfl⟩ | rfl | ⟨p, rfl⟩
  · obtain ⟨x, -, e⟩ := exec_rx hrx s
    rw [e] at h; cases h
    exact .inl (by rw [rxReturn_result_slots])
  · cases h; exact .inl rfl
  · cases h; exact .inl rfl
  · cases h
    by_cases hj : j = s.cfg.pollSlot
    swap
    · exact .inr (.inl ⟨rfl, loop_slot s j fun e => absurd e hj⟩)
    subst hj
    rcases loop_cases s with ⟨hr, -⟩ | ⟨-, -, e⟩ | ⟨hr, -, p, pdf, -, e⟩
    · exact .inr (.inl ⟨rfl, loop_slot s _ fun _ => hr⟩)
    · exact .inr (.inl ⟨rfl, by rw [e]; exact mapSlots_ticked s _⟩)
    · exact .inr (.inr (.inr ⟨rfl, hr, rfl, by rw [e]; exact slot_set_self _ _ _⟩))
  · cases h
    by_cases hj : j = k
    · subst hj; exact .inr (.inr (.inl ⟨g, rfl, slot_set_self _ _ _⟩))
    · exact .inl (slot_set_ne _ _ hj)
  · cases h; exact .inl rfl
  · cases h; exact .inl rfl

/-! ## Tick counters stay at or below CEIL -/

theorem sampledSlot_cnt_le {s : State} {j : Fin nSlots} (h : s.slots[j].cnt.toNat ≤ s.cfg.ceil.toNat) :
    (sampledSlot s j).cnt.toNat ≤ s.cfg.ceil.toNat := by
  obtain ⟨counted, kept⟩ := sampledSlot_spec s j
  by_cases hc : j.val < s.cfg.numSlots.val ∧ s.slots[j].run = true ∧ edgePending s.slots[j].gran s = true
  · rw [(counted hc).1]; exact min_le_right _ _
  · rwa [kept hc]

@[simp] theorem rearm_cnt (g : Gran) (t : TimerSlot) : (t.rearm g).cnt = 0 := rfl

/-- No event takes a counter above CEIL (40_timer_service.md R124). -/
theorem exec_cnt_le {i : Instr} {s t : State} (h : exec i s = .next t) {j : Fin nSlots}
    (hj : s.slots[j].cnt.toNat ≤ s.cfg.ceil.toNat) : t.slots[j].cnt.toNat ≤ s.cfg.ceil.toNat := by
  rcases exec_slot_cases h j with e | ⟨-, e⟩ | ⟨g, -, e⟩ | ⟨-, -, -, e⟩ <;> rw [e]
  · exact hj
  · exact sampledSlot_cnt_le hj
  · simp
  · simp

theorem step_cnt_le {s t : State} (h : step s = .next t) {j : Fin nSlots}
    (hj : s.slots[j].cnt.toNat ≤ s.cfg.ceil.toNat) : t.slots[j].cnt.toNat ≤ s.cfg.ceil.toNat := by
  obtain ⟨-, -, ⟨-, rfl⟩ | ⟨w, rest, -, hw⟩⟩ := step_next h
  · exact hj
  rcases runWord_cases w (s.withStim rest) with ⟨i, -, e⟩ | ⟨r, -, e⟩ <;> rw [e] at hw
  · exact exec_cnt_le hw hj
  · cases hw; exact hj

/-- 00_scope.md R9: `CEIL < 2^CNT_W`. -/
theorem ceil_lt_of_legal {c : Config} (h : c.legal = true) : c.ceil.toNat < 2 ^ c.cntW := by
  obtain ⟨⟨-, -, -, -, -, -, -, -, hceil, -⟩, -⟩ := (Claims.legal_iff_r9 c).1 h
  exact hceil

end Sys2Proof.Machine

namespace Sys2Proof.Claims

open Sys2Proof.Machine

/-- Settles O5: a step refuses exactly the illegal configurations, and legality is R9 with the two counts. -/
theorem configurationOutsideTheConstraintsIsRefused :
    Obligations.ConfigurationOutsideTheConstraintsIsRefused := by
  intro s hf
  rw [step_refused_iff hf, legal_iff_r9, not_and_or, not_and_or]

/-- Settles O50: counters stay at or below CEIL, and CEIL is below 2^CNT_W. -/
theorem tickCountersKeepTheirWidth : Obligations.TickCountersKeepTheirWidth := by
  intro s t hinv hstep j
  have hceil : s.cfg.ceil.toNat < 2 ^ s.cfg.cntW := ceil_lt_of_legal hinv.legal
  have hbefore : s.slots[j].cnt.toNat ≤ s.cfg.ceil.toNat := hinv.cnt_le j
  exact ⟨lt_of_le_of_lt hbefore hceil, lt_of_le_of_lt (step_cnt_le hstep hbefore) hceil⟩

end Sys2Proof.Claims

/-! # Proofs: who writes what, the FAULT mark, and the invariants (10_state.md R26 to R43) -/

namespace Sys2Proof.Machine

open Sys2Proof.Claims

/-! ## What an event does, by its row -/

/-- The next states of a row, one constructor per kind of event: an RX action with its logged outcome, or the one write of
the other rows (30_encoding.md R90). -/
inductive Effect (s : State) : Instr → State → Prop
  | rx {i : Instr} {x : RxAction} (hi : i.eventClass = .rx) (hx : rowAction s.cfg i = some x) :
      Effect s i (rxReturn (x.result s))
  | tickMs : Effect s .tickMs (s.writeTMs (!s.tMs))
  | tickDs : Effect s .tickDs (s.writeTDs (!s.tDs))
  | loop : Effect s .loop (psmStep (sampleBoth s))
  | treset (k : Fin nSlots) (g : Gran) : Effect s (.treset k g) (s.writeSlots (s.slots.set k (s.slots[k].rearm g)))
  | ack : Effect s .ack (s.writeRedraw false)
  | txReq (p : Byte) : Effect s (.txReq p) (s.markFault .refusedStimulus)

theorem effect_of_exec {i : Instr} {s t : State} (h : exec i s = .next t) : Effect s i t := by
  rcases instr_cases i with hrx | rfl | rfl | rfl | ⟨k, g, rfl⟩ | rfl | ⟨p, rfl⟩
  · obtain ⟨x, hx, e⟩ := exec_rx hrx s
    rw [e] at h; cases h
    exact .rx hrx hx
  · cases h; exact .tickMs
  · cases h; exact .tickDs
  · cases h; exact .loop
  · cases h; exact .treset k g
  · cases h; exact .ack
  · cases h; exact .txReq p

/-- An RX action writes the readings and nothing else (41_receive_demux.md R170). -/
theorem rxReturn_result_frame (x : RxAction) (s : State) : SameOutsideReadings s (rxReturn (x.result s)) := by
  cases x with
  | discardId | discardType => simp [SameOutsideReadings, SameSequencer, RxAction.result, rxReturn, discard_snd]
  | cell | hv | pdate | soc | ignored | placeholder =>
    exact ⟨⟨rfl, rfl, rfl, rfl, rfl, rfl⟩, rfl, rfl, rfl, rfl, rfl, rfl, rfl⟩

/-- A LOOP pass writes no reading, no toggle flag, no parameter and no word to come. -/
theorem loop_frame (s : State) :
    SameReadings s (psmStep (sampleBoth s)) ∧ (psmStep (sampleBoth s)).tMs = s.tMs ∧
      (psmStep (sampleBoth s)).tDs = s.tDs ∧ (psmStep (sampleBoth s)).cfg = s.cfg ∧
      (psmStep (sampleBoth s)).stim = s.stim := by
  rcases loop_cases s with ⟨-, p, e, -⟩ | ⟨-, -, e⟩ | ⟨-, -, p, pdf, -, e⟩ <;> rw [e] <;>
    exact ⟨⟨rfl, rfl, rfl, rfl, rfl, rfl, rfl⟩, rfl, rfl, rfl, rfl⟩

/-! ## Who writes what (10_state.md R42) -/

/-- Only RX writes the readings. -/
theorem exec_sameReadings {i : Instr} {s t : State} (h : exec i s = .next t) (hi : i.eventClass ≠ .rx) :
    SameReadings s t := by
  cases effect_of_exec h with
  | rx hrx => exact absurd hrx hi
  | loop => exact (loop_frame s).1
  | tickMs | tickDs | treset | ack | txReq => exact ⟨rfl, rfl, rfl, rfl, rfl, rfl, rfl⟩

/-- Only LOOP writes the sequencer's registers. -/
theorem exec_sameSequencer {i : Instr} {s t : State} (h : exec i s = .next t) (hi : i ≠ .loop) :
    SameSequencer s t := by
  cases effect_of_exec h with
  | @rx _ x => exact (rxReturn_result_frame x s).1
  | loop => exact absurd rfl hi
  | tickMs | tickDs | treset | ack | txReq => exact ⟨rfl, rfl, rfl, rfl, rfl, rfl⟩

/-- A LOOP pass sends at most one frame (42_request_encoder.md R193). -/
theorem loop_txLog (s : State) :
    (psmStep (sampleBoth s)).txLog = s.txLog ∨ ∃ f, (psmStep (sampleBoth s)).txLog = s.txLog ++ [f] := by
  rcases loop_cases s with ⟨-, p, e, -⟩ | ⟨-, -, e⟩ | ⟨-, -, p, pdf, -, e⟩ <;> rw [e]
  · exact .inl rfl
  · exact .inl rfl
  · exact .inr ⟨_, rfl⟩

/-- A LOOP pass sets REDRAW or leaves it (43_polling_fsm.md R217). -/
theorem loop_redraw {s : State} (h : s.redraw = true) : (psmStep (sampleBoth s)).redraw = true := by
  rcases loop_cases s with ⟨-, p, e, -⟩ | ⟨-, -, e⟩ | ⟨-, -, p, pdf, -, e⟩ <;> rw [e]
  · exact h
  · exact h

/-- No event writes a parameter (00_scope.md R8). -/
theorem exec_cfg {i : Instr} {s t : State} (h : exec i s = .next t) : t.cfg = s.cfg := by
  cases effect_of_exec h with
  | @rx _ x => obtain ⟨-, -, -, -, -, -, hcfg, -⟩ := rxReturn_result_frame x s; exact hcfg
  | loop => obtain ⟨-, -, -, hcfg, -⟩ := loop_frame s; exact hcfg
  | tickMs | tickDs | treset | ack | txReq => rfl

/-- No event writes the words to come. -/
theorem exec_stim {i : Instr} {s t : State} (h : exec i s = .next t) : t.stim = s.stim := by
  cases effect_of_exec h with
  | @rx _ x => obtain ⟨-, -, -, -, -, -, -, hstim⟩ := rxReturn_result_frame x s; exact hstim
  | loop => obtain ⟨-, -, -, -, hstim⟩ := loop_frame s; exact hstim
  | tickMs | tickDs | treset | ack | txReq => rfl

/-- Only LOOP and TRESET write the slots. -/
theorem exec_slots {i : Instr} {s t : State} (h : exec i s = .next t) (hl : i ≠ .loop) (ht : i.eventClass ≠ .treset) :
    t.slots = s.slots := by
  cases effect_of_exec h with
  | rx => exact rxReturn_result_slots _ s
  | loop => exact absurd rfl hl
  | treset => exact absurd rfl ht
  | tickMs | tickDs | ack | txReq => rfl

@[simp] theorem rearm_period (g : Gran) (t : TimerSlot) : (t.rearm g).period = t.period := rfl
@[simp] theorem rearm_run (g : Gran) (t : TimerSlot) : (t.rearm g).run = true := rfl

/-- No event writes PERIOD (10_state.md R37). -/
theorem exec_period {i : Instr} {s t : State} (h : exec i s = .next t) (j : Fin nSlots) :
    t.slots[j].period = s.slots[j].period := by
  rcases exec_slot_cases h j with e | ⟨-, e⟩ | ⟨g, -, e⟩ | ⟨-, -, -, e⟩ <;> rw [e]
  · exact sampledSlot_period s j
  · exact rearm_period ..
  · exact (rearm_period ..).trans (sampledSlot_period s j)

/-- No event clears RUN (10_state.md R35). -/
theorem exec_run {i : Instr} {s t : State} (h : exec i s = .next t) {j : Fin nSlots} (hr : s.slots[j].run = true) :
    t.slots[j].run = true := by
  rcases exec_slot_cases h j with e | ⟨-, e⟩ | ⟨g, -, e⟩ | ⟨-, -, -, e⟩ <;> rw [e]
  · exact hr
  · rw [sampledSlot_run, hr]
  · exact rearm_run ..
  · exact rearm_run ..

/-- RUN and GRAN of a slot change only where the slot is re-armed (10_state.md R35, R36). -/
theorem exec_run_gran {i : Instr} {s t : State} (h : exec i s = .next t) {j : Fin nSlots}
    (ht : ∀ g, i ≠ .treset j g) (hp : ¬ (i = .loop ∧ s.psm = .requesting ∧ j = s.cfg.pollSlot)) :
    t.slots[j].run = s.slots[j].run ∧ t.slots[j].gran = s.slots[j].gran := by
  rcases exec_slot_cases h j with e | ⟨-, e⟩ | ⟨g, hi, -⟩ | ⟨hi, hr, hj, -⟩
  · rw [e]; exact ⟨rfl, rfl⟩
  · rw [e]; exact ⟨sampledSlot_run s j, sampledSlot_gran s j⟩
  · exact absurd hi (ht g)
  · exact absurd ⟨hi, hr, hj⟩ hp

/-! ## The FAULT mark (10_state.md R40) -/

theorem step_of_haltReason {s : State} {r : Fault} (h : haltReason s = some r) : step s = .fault r := by
  rw [step, h]

/-- All an event can do to the mark: a TX record as an input refuses, a REQUESTING pass above cursor 10 faults. -/
theorem exec_fault_cases {i : Instr} {s t : State} (h : exec i s = .next t) :
    t.fault = s.fault ∨ t.fault = .refusedStimulus ∨ (t.fault = .cursorOutOfRange ∧ 10 < s.cursor.toNat) := by
  cases effect_of_exec h with
  | @rx _ x => obtain ⟨-, -, -, -, -, hfault, -⟩ := rxReturn_result_frame x s; exact .inl hfault
  | loop =>
    rcases loop_cases s with ⟨-, p, e, -⟩ | ⟨-, hc, e⟩ | ⟨-, -, p, pdf, -, e⟩ <;> rw [e]
    · exact .inl rfl
    · exact .inr (.inr ⟨rfl, hc⟩)
    · exact .inl rfl
  | txReq => exact .inr (.inl rfl)
  | tickMs | tickDs | treset | ack => exact .inl rfl

/-! ## CURSOR, PDF and TXLOG (43_polling_fsm.md R214, R215) -/

theorem advance_le {cur : BitVec 4} (h : cur.toNat ≤ 10) : (advance cur).toNat ≤ 10 := by
  rw [advance_toNat h]; omega

/-- Within a legal configuration a request sets PDF exactly when it is for TAG_PDATE: the other indices, 0 to 9 and TAG_SOC,
differ from it (00_scope.md R9). -/
theorem select_pdf {c : Config} (hc : c.legal = true) {cur : BitVec 4} {pdf pdf' : Bool} {p : Byte}
    (h : select c cur pdf = some (p, pdf')) : pdf' = true ↔ pdf = true ∨ p = c.tagPdate := by
  obtain ⟨-, -, hpdate, hne, -⟩ := c.legal_iff.1 hc
  rcases select_cases c cur pdf with ⟨h9, e⟩ | ⟨-, e⟩ | ⟨-, e⟩ <;> rw [e] at h
  · cases h
    have hp : BitVec.ofNat 8 cur.toNat ≠ c.tagPdate := fun hp => by
      rw [← hp, BitVec.toNat_ofNat] at hpdate; omega
    exact ⟨.inl, fun hor => hor.resolve_right hp⟩
  · cases h
    cases pdf <;> simp
  · cases h

theorem exec_cursor_le {i : Instr} {s t : State} (h : exec i s = .next t) (hc : s.cursor.toNat ≤ 10) :
    t.cursor.toNat ≤ 10 := by
  by_cases hi : i = .loop
  · subst hi; cases h
    rcases loop_cases s with ⟨-, p, e, -⟩ | ⟨-, -, e⟩ | ⟨-, -, p, pdf, -, e⟩ <;> rw [e]
    · exact hc
    · exact hc
    · exact advance_le hc
  · obtain ⟨hcursor, -⟩ := exec_sameSequencer h hi
    rwa [hcursor]

/-- PDF says whether a frame with tag TAG_PDATE has been sent (10_state.md R28, R43). -/
def PdfMarksTheDate (s : State) : Prop := s.pdf = true ↔ ∃ f ∈ s.txLog, f.data.d3 = s.cfg.tagPdate

theorem exec_pdfMarksTheDate {i : Instr} {s t : State} (h : exec i s = .next t) (hl : s.cfg.legal = true)
    (hp : PdfMarksTheDate s) : PdfMarksTheDate t := by
  unfold PdfMarksTheDate at hp ⊢
  by_cases hi : i = .loop
  · subst hi; cases h
    rcases loop_cases s with ⟨-, p, e, -⟩ | ⟨-, -, e⟩ | ⟨-, -, p, pdf, hs, e⟩ <;> rw [e]
    · exact hp
    · exact hp
    · show pdf = true ↔ ∃ f ∈ s.txLog ++ [encodeRequest s.cfg p], f.data.d3 = s.cfg.tagPdate
      rw [select_pdf hl hs, hp]
      simp [or_and_right, exists_or, encodeRequest]
  · obtain ⟨-, hpdf, -, htx, -⟩ := exec_sameSequencer h hi
    rwa [hpdf, htx, exec_cfg h]

/-! ## EXP and CNT (40_timer_service.md R124, R125, R127) -/

/-- With a period of at least 1, EXP is set exactly when CNT has reached it (10_state.md R43). -/
def ExpiryExact (t : TimerSlot) : Prop :=
  1 ≤ t.period.toNat → (t.expired = true ↔ t.period.toNat ≤ t.cnt.toNat)

/-- A slot that has not begun to count, as at reset and after a re-arm. -/
theorem expiryExact_of_clear {t : TimerSlot} (he : t.expired = false) (hc : t.cnt = 0) : ExpiryExact t := by
  intro hp
  have hcnt : t.cnt.toNat = 0 := by simp [hc]
  exact ⟨fun h => absurd h (by simp [he]), fun h => by omega⟩

/-- A tick keeps the rule because a count at or below CEIL never falls. -/
theorem expiryExact_sampledSlot {s : State} {j : Fin nSlots} (hc : s.slots[j].cnt.toNat ≤ s.cfg.ceil.toNat)
    (h : ExpiryExact s.slots[j]) : ExpiryExact (sampledSlot s j) := by
  obtain ⟨counted, kept⟩ := sampledSlot_spec s j
  by_cases hcount : j.val < s.cfg.numSlots.val ∧ s.slots[j].run = true ∧ edgePending s.slots[j].gran s = true
  · obtain ⟨hcnt, hexp⟩ := counted hcount
    intro hp
    rw [sampledSlot_period] at hp ⊢
    rw [hexp, h hp]
    omega
  · rwa [kept hcount]

theorem exec_expiryExact {i : Instr} {s t : State} (h : exec i s = .next t) {j : Fin nSlots}
    (hc : s.slots[j].cnt.toNat ≤ s.cfg.ceil.toNat) (he : ExpiryExact s.slots[j]) : ExpiryExact t.slots[j] := by
  rcases exec_slot_cases h j with e | ⟨-, e⟩ | ⟨g, -, e⟩ | ⟨-, -, -, e⟩ <;> rw [e]
  · exact he
  · exact expiryExact_sampledSlot hc he
  · exact expiryExact_of_clear rfl rfl
  · exact expiryExact_of_clear rfl rfl

/-! ## PDATE in mode OR (20_memory.md R65) -/

theorem pdateWord_bitOr_lt (d4 d5 d6 d7 : Byte) : (pdateWord .bitOr d4 d5 d6 d7).toNat < 0x100 := by
  rw [pdateWord, BitVec.toNat_setWidth]
  exact lt_of_le_of_lt (Nat.mod_le _ _) (d4 ||| d5 ||| d6 ||| d7).isLt

/-- What an action writes to PDATE is below 0x100. -/
def RxAction.SmallDate (x : RxAction) : Prop := ∀ v, x = .pdate v → v.toNat < 0x100

theorem payloadAction_smallDate {c : Config} (hm : c.pdateMode = .bitOr) (d : Payload) :
    (payloadAction c d).SmallDate := by
  intro v hv
  unfold payloadAction at hv
  cases hd : tagDest c d.d3 <;> rw [hd] at hv <;> cases hv
  rw [hm]; exact pdateWord_bitOr_lt ..

theorem stdAction_smallDate {c : Config} (hm : c.pdateMode = .bitOr) (id : StdId) (d : Payload) :
    (stdAction c id d).SmallDate := by
  unfold stdAction
  split
  · exact payloadAction_smallDate hm d
  · rintro v ⟨⟩

theorem rowAction_smallDate {c : Config} (hm : c.pdateMode = .bitOr) {i : Instr} {x : RxAction}
    (h : rowAction c i = some x) : x.SmallDate := by
  cases i with
  | rxPdate a =>
    cases h
    rintro v ⟨⟩
    rw [hm]; exact pdateWord_bitOr_lt ..
  | rxStdQ1 id a =>
    cases h
    split
    · rintro v ⟨⟩
    · exact stdAction_smallDate hm id a.data
  | _ => cases h <;> rintro v ⟨⟩

/-- An RX action writes its date to PDATE or leaves it. -/
theorem rxReturn_result_pdate (x : RxAction) (s : State) :
    (rxReturn (x.result s)).pdate = s.pdate ∨ x = .pdate (rxReturn (x.result s)).pdate := by
  cases x with
  | pdate v => exact .inr rfl
  | discardId | discardType => left; simp [RxAction.result, rxReturn, discard_snd]
  | cell | hv | soc | ignored | placeholder => exact .inl rfl

theorem exec_pdate_lt {i : Instr} {s t : State} (h : exec i s = .next t) (hm : s.cfg.pdateMode = .bitOr)
    (hp : s.pdate.toNat < 0x100) : t.pdate.toNat < 0x100 := by
  by_cases hi : i.eventClass = .rx
  · obtain ⟨x, hx, e⟩ := exec_rx hi s
    rw [e] at h; cases h
    rcases rxReturn_result_pdate x s with hkept | hwritten
    · rwa [hkept]
    · exact rowAction_smallDate hm hx _ hwritten
  · obtain ⟨-, -, -, hpdate, -⟩ := exec_sameReadings h hi
    rwa [hpdate]

/-! ## The invariants (10_state.md R43) -/

/-- Every event keeps the invariants. -/
theorem exec_inv {i : Instr} {s t : State} (hinv : Inv s) (h : exec i s = .next t) : Inv t where
  legal := by rw [exec_cfg h]; exact hinv.legal
  cursor_le := exec_cursor_le h hinv.cursor_le
  cnt_le j := by rw [exec_cfg h]; exact exec_cnt_le h (hinv.cnt_le j)
  expired_iff j := exec_expiryExact h (hinv.cnt_le j) (hinv.expired_iff j)
  pdf_iff := exec_pdfMarksTheDate h hinv.legal hinv.pdf_iff
  pdate_lt hm := by rw [exec_cfg h] at hm; exact exec_pdate_lt h hm (hinv.pdate_lt hm)
  poll_period := by simp only [exec_cfg h, exec_period h]; exact hinv.poll_period
  no_cursor_fault hf := by
    rcases exec_fault_cases h with e | e | ⟨-, hc⟩
    · exact hinv.no_cursor_fault (e ▸ hf)
    · rw [e] at hf; cases hf
    · exact absurd hinv.cursor_le (by omega)

/-- The words to come are in no invariant. -/
theorem inv_withStim {s : State} (hinv : Inv s) (l : List Sw) : Inv (s.withStim l) := { hinv with }

/-- A refused word's mark is not the cursor's. -/
theorem inv_refused {s : State} (hinv : Inv s) : Inv (s.markFault .refusedStimulus) :=
  { hinv with no_cursor_fault := by rintro ⟨⟩ }

/-- What the taking of a word, a refusal and every event keep, every step keeps. -/
theorem step_keeps {P : State → Prop} (hstim : ∀ {s : State}, P s → ∀ l, P (s.withStim l))
    (hrefused : ∀ {s : State}, P s → P (s.markFault .refusedStimulus))
    (hexec : ∀ {i : Instr} {s t : State}, P s → exec i s = .next t → P t)
    {s t : State} (hs : P s) (h : step s = .next t) : P t := by
  obtain ⟨-, -, ⟨-, rfl⟩ | ⟨w, rest, -, hw⟩⟩ := step_next h
  · exact hs
  rcases runWord_cases w (s.withStim rest) with ⟨i, -, e⟩ | ⟨r, -, e⟩ <;> rw [e] at hw
  · exact hexec (hstim hs rest) hw
  · cases hw; exact hrefused (hstim hs rest)

theorem inv_resetWith {c : Config} (hc : c.legal = true) : Inv (State.resetWith c) where
  legal := hc
  cursor_le := Nat.zero_le _
  cnt_le j := by rw [resetWith_slot]; exact Nat.zero_le _
  expired_iff j := by rw [resetWith_slot]; exact expiryExact_of_clear rfl rfl
  pdf_iff := by simp [State.resetWith]
  pdate_lt _ := by simp [State.resetWith]
  poll_period := by
    show (State.resetWith c).slots[c.pollSlot].period = c.pPoll
    rw [resetWith_slot, if_pos rfl]
  no_cursor_fault := by rintro ⟨⟩

/-- The launch state is the reset state after boot step (4), one TRESET (70_reset_and_hazards.md R283). -/
theorem exec_treset_resetWith (c : Config) :
    exec (.treset c.pollSlot c.gPoll) (State.resetWith c) = .next (State.launch c) := rfl

end Sys2Proof.Machine

namespace Sys2Proof.Claims

open Sys2Proof.Machine

/-- Settles O49: each invariant is kept by every event, so by every step. -/
theorem everyStepKeepsTheInvariants : Obligations.EveryStepKeepsTheInvariants :=
  fun _ _ => step_keeps (P := Inv) inv_withStim inv_refused exec_inv

/-- Settles O42, by the kind of event. -/
theorem onlyReceiveWritesTheReadings : Obligations.OnlyReceiveWritesTheReadings :=
  fun _ _ _ hi h => exec_sameReadings h hi

/-- Settles O43: the frame of the other events, and what a LOOP pass appends. -/
theorem onlyLoopMovesTheSequencer : Obligations.OnlyLoopMovesTheSequencer := by
  intro i s t h
  refine ⟨exec_sameSequencer h, ?_⟩
  rintro rfl
  cases h
  exact loop_txLog s

/-- Settles O44, by the kind of event. -/
theorem togglesAndRedrawHaveTheirWriters : Obligations.TogglesAndRedrawHaveTheirWriters := by
  intro i s t h
  cases effect_of_exec h with
  | @rx _ x hi =>
    obtain ⟨-, hredraw, htMs, htDs, -⟩ := rxReturn_result_frame x s
    exact ⟨fun _ => htMs, fun _ => htDs, fun _ _ => hredraw, fun _ hr => hredraw.trans hr⟩
  | loop =>
    obtain ⟨-, htMs, htDs, -⟩ := loop_frame s
    exact ⟨fun _ => htMs, fun _ => htDs, fun hl => absurd rfl hl, fun _ => loop_redraw⟩
  | tickMs => exact ⟨fun hi => absurd rfl hi, fun _ => rfl, fun _ _ => rfl, fun _ => id⟩
  | tickDs => exact ⟨fun _ => rfl, fun hi => absurd rfl hi, fun _ _ => rfl, fun _ => id⟩
  | treset | txReq => exact ⟨fun _ => rfl, fun _ => rfl, fun _ _ => rfl, fun _ => id⟩
  | ack => exact ⟨fun _ => rfl, fun _ => rfl, fun _ ha => absurd rfl ha, nofun⟩

/-- Settles O45: the frame of every event, and per slot what it can do to it. -/
theorem timerSlotsHaveTheirWriters : Obligations.TimerSlotsHaveTheirWriters :=
  fun _ _ _ h => ⟨exec_cfg h, exec_stim h, exec_slots h, fun j => ⟨exec_period h j, exec_run h, exec_run_gran h⟩⟩

/-- Settles O4: the mark is the reason to halt, and reset clears it. -/
theorem faultedStateTakesNoFurtherStep : Obligations.FaultedStateTakesNoFurtherStep := by
  intro s
  refine ⟨fun hf => step_of_haltReason ?_, fun hf => step_of_haltReason ?_, fun t h => (step_next h).1, rfl⟩
  · rw [haltReason, hf]
  · rw [haltReason, hf]

/-- Settles O48: at reset every register is 0, and the launch state is one event later. -/
theorem resetMeetsTheInvariants : Obligations.ResetMeetsTheInvariants := by
  intro c hc
  exact ⟨inv_resetWith hc, exec_inv (inv_resetWith hc) (exec_treset_resetWith c), nofun⟩

end Sys2Proof.Claims

/-! # Proofs: the order of events, and the read port (20_memory.md R61, R72) -/

namespace Sys2Proof.Machine

open Sys2Proof.Claims

/-! ## An RX event and another event touch different registers -/

/-- `s` with the registers only an RX event writes (10_state.md R42) taken from `r`. -/
def State.withReadings (s r : State) : State :=
  { s with
    rxLog := r.rxLog
    cell := r.cell
    hv := r.hv
    soc := r.soc
    pdate := r.pdate
    lastIdx := r.lastIdx
    discardCtr := r.discardCtr }

/-- An RX action writes the readings alone, and reads only them and the configuration: where those agree, it writes the
same. -/
theorem rxReturn_result_of_sameReadings {s t : State} (hr : SameReadings s t) (hc : t.cfg = s.cfg) (x : RxAction) :
    rxReturn (x.result t) = t.withReadings (rxReturn (x.result s)) := by
  obtain ⟨hcell, hhv, hsoc, hpdate, hlastIdx, hdiscardCtr, hrxLog⟩ := hr
  cases s
  cases t
  subst hcell hhv hsoc hpdate hlastIdx hdiscardCtr hrxLog hc
  cases x with
  | discardId | discardType => simp only [RxAction.result, rxReturn, discard_snd]; rfl
  | cell | hv | pdate | soc | ignored | placeholder => rfl

/-- Both samples of a LOOP pass read and write no reading. -/
theorem sampleBoth_withReadings (s r : State) : sampleBoth (s.withReadings r) = (sampleBoth s).withReadings r := by
  rw [sampleBoth_eq, sampleBoth_eq]; rfl

/-- A request reads and writes no reading (43_polling_fsm.md R213 to R217). -/
theorem request_withReadings (s r : State) : request (s.withReadings r) = (request s).withReadings r := by
  rcases request_cases s with ⟨hc, e⟩ | ⟨-, p, pdf, hs, e⟩
  · rcases request_cases (s.withReadings r) with ⟨-, e'⟩ | ⟨hc', -⟩
    · rw [e, e']; rfl
    · exact absurd hc' (not_le.2 hc)
  · rw [e]; exact request_of_select (s := s.withReadings r) hs

/-- A PSM transition reads and writes no reading. -/
theorem psmStep_withReadings (s r : State) : psmStep (s.withReadings r) = (psmStep s).withReadings r := by
  have hpsm : (s.withReadings r).psm = s.psm := rfl
  unfold psmStep
  rw [hpsm]
  cases s.psm with
  | idle | cooldown => rfl
  | armed => simp only [apply_ite (State.withReadings · r)]; rfl
  | requesting => exact request_withReadings s r

/-- An event of another class than RX gives the same whatever the readings are, and leaves them. -/
theorem exec_withReadings {j : Instr} {s t : State} (hj : j.eventClass ≠ .rx) (h : exec j s = .next t) (r : State) :
    exec j (s.withReadings r) = .next (t.withReadings r) := by
  cases effect_of_exec h with
  | rx hrx => exact absurd hrx hj
  | loop => rw [exec_loop, sampleBoth_withReadings, psmStep_withReadings]
  | tickMs | tickDs | treset | ack | txReq => rfl

/-! ## The read port -/

theorem readField_of_lt (s : State) {x : Byte} (h : x.toNat < nCells) :
    readField s x = .ok (.bits16 s.cell[x.toNat]) := dif_pos h

/-- The indices above 0x0E name no register. -/
theorem readField_of_gt (s : State) {x : Byte} (h : 0x0E < x.toNat) : readField s x = .error .noSuchField := by
  have hne (y : Byte) (hy : y.toNat ≤ 0x0E) : x ≠ y := by rintro rfl; omega
  rw [readField, dif_neg (show ¬ x.toNat < 9 by omega), if_neg (hne 0x09 (by decide)), if_neg (hne 0x0A (by decide)),
    if_neg (hne 0x0B (by decide)), if_neg (hne 0x0C (by decide)), if_neg (hne 0x0D (by decide)),
    if_neg (hne 0x0E (by decide))]

/-- DISCARD_CTR can be read only where it exists (10_state.md R38). -/
theorem readField_discardCtr (s : State) :
    readField s 0x0D = if s.cfg.hasDiscardCtr then .ok (.bits32 s.discardCtr) else .error .noSuchField := rfl

end Sys2Proof.Machine

namespace Sys2Proof.Claims

open Sys2Proof.Machine

/-- Settles O21: the other event leaves the readings and the configuration, so the RX action writes the same after it;
and it does the same whatever the readings are. -/
theorem receiveCommutesWithEveryOtherEvent : Obligations.ReceiveCommutesWithEveryOtherEvent := by
  intro i j s hi hj
  obtain ⟨x, hx, hrx⟩ := exec_rx hi s
  obtain ⟨t, ht⟩ := exec_completes j s
  have hcfg : t.cfg = s.cfg := exec_cfg ht
  have hrxAfter : exec i t = .next (rxReturn (x.result t)) := exec_of_rowAction (hcfg ▸ hx)
  have hsplit : rxReturn (x.result s) = s.withReadings (rxReturn (x.result s)) :=
    rxReturn_result_of_sameReadings ⟨rfl, rfl, rfl, rfl, rfl, rfl, rfl⟩ rfl x
  calc andThen (exec i s) (exec j)
    _ = exec j (rxReturn (x.result s)) := by rw [hrx, andThen]
    _ = .next (t.withReadings (rxReturn (x.result s))) := by rw [hsplit]; exact exec_withReadings hj ht _
    _ = .next (rxReturn (x.result t)) := by rw [rxReturn_result_of_sameReadings (exec_sameReadings ht hj) hcfg]
    _ = andThen (exec j s) (exec i) := by rw [ht, andThen, hrxAfter]

/-- Settles O52, by the ranges of the field index. -/
theorem readPortFollowsTheFieldIndex : Obligations.ReadPortFollowsTheFieldIndex := by
  intro s
  refine ⟨fun k => ?_, rfl, rfl, rfl, rfl, fun h => ?_, fun h => ?_, rfl, fun x => readField_of_gt s⟩
  · have hk : (BitVec.ofNat 8 k.val).toNat = k.val := by
      rw [BitVec.toNat_ofNat, Nat.mod_eq_of_lt (k.isLt.trans (by decide))]
    rw [readField_of_lt s (hk.trans_lt k.isLt)]
    simp only [hk]; rfl
  · rw [readField_discardCtr, if_pos h]
  · rw [readField_discardCtr, h]; rfl

end Sys2Proof.Claims

/-! # Proofs: the words of the events, their decoding, their opcode rows and their listing (30_encoding.md R83 to R93) -/

namespace Sys2Proof

/-- The operands of a frame without its tag `D[3]`. -/
def FrameArgs.withoutTag (a : FrameArgs) : RespArgs :=
  ⟨a.rtr, a.dlc, a.data.d0, a.data.d1, a.data.d2, a.data.d4, a.data.d5, a.data.d6, a.data.d7⟩

/-- The operands of a response with its tag. -/
def RespArgs.withTag (t : Byte) (a : RespArgs) : FrameArgs :=
  ⟨a.rtr, a.dlc, ⟨a.d0, a.d1, a.d2, t, a.d4, a.d5, a.d6, a.d7⟩⟩

theorem stdId_narrow (id : StdId) : (id.setWidth 32).setWidth 11 = id := by
  rw [BitVec.setWidth_setWidth_of_le _ (by omega), BitVec.setWidth_eq]

theorem extId_narrow (id : ExtId) : (id.setWidth 32).setWidth 29 = id := by
  rw [BitVec.setWidth_setWidth_of_le _ (by omega), BitVec.setWidth_eq]

theorem queueCode_of_zero_or_one {x : BitVec 4} (h : x = 0 ∨ x = 1) : ∃ q : Queue, q.code = x := by
  rcases h with rfl | rfl
  exacts [⟨.primary, rfl⟩, ⟨.secondary, rfl⟩]

theorem queueCode_le (q : Queue) : q.code.toNat ≤ 1 := by cases q <;> decide

theorem granCode_of_le {x : BitVec 4} (h : x.toNat ≤ 1) : ∃ g : Gran, g.code = x := by
  rcases zero_or_one h with rfl | rfl
  exacts [⟨.ms, rfl⟩, ⟨.ds, rfl⟩]

theorem eventClassCode_eq_rx {k : EventClass} : k.code = 0x01 ↔ k = .rx := by cases k <;> decide

/-! ## Words with zero ranges (R84 WF_ZERO) -/

/-- A word whose low 112 bits are 0 holds EC, A and B alone. -/
theorem eq_mkSw_of_low112 {w : Sw} (h : w.extractLsb' 0 112 = 0) :
    w = mkSw (swEc w) (swA w) (swB w) 0 0 0 0 0 := by
  conv_lhs => rw [← mkSw_fields w]
  exact mkSw_inj.2 ⟨rfl, rfl, rfl, extractLsb'_zero_sub (by omega) h, extractLsb'_zero_sub (by omega) h,
    extractLsb'_zero_sub (by omega) h, extractLsb'_zero_sub (by omega) h, extractLsb'_zero_sub (by omega) h⟩

/-- A word whose low 116 bits are 0 holds EC and A alone. -/
theorem eq_mkSw_of_low116 {w : Sw} (h : w.extractLsb' 0 116 = 0) : w = mkSw (swEc w) (swA w) 0 0 0 0 0 0 := by
  have hB : swB w = 0 := extractLsb'_zero_sub (by omega) h
  have hw := eq_mkSw_of_low112 (extractLsb'_zero_sub (by omega) h)
  rwa [hB] at hw

/-- A word whose low 120 bits are 0 holds EC alone. -/
theorem eq_mkSw_of_low120 {w : Sw} (h : w.extractLsb' 0 120 = 0) : w = mkSw (swEc w) 0 0 0 0 0 0 0 := by
  have hA : swA w = 0 := extractLsb'_zero_sub (by omega) h
  have hw := eq_mkSw_of_low116 (extractLsb'_zero_sub (by omega) h)
  rwa [hA] at hw

/-! ## The rows 1 to 13 by their tags (R86, R90) -/

/-- Above 0x09 a tag is one of the two special tags or an unknown one. -/
theorem decodeResponse_of_nine_lt {t : Byte} (ht : 9 < t.toNat) (c : Config) (a : RespArgs) :
    decodeResponse c t a =
      if t = c.tagPdate then .rxPdate a else if t = c.tagSoc then .rxSoc a else .rxTagOther t a := by
  have hne (k : Byte) (hk : k.toNat ≤ 9) : t ≠ k := by rintro rfl; omega
  rw [decodeResponse, if_neg (hne 0x00 (by decide)), if_neg (hne 0x01 (by decide)), if_neg (hne 0x02 (by decide)),
    if_neg (hne 0x03 (by decide)), if_neg (hne 0x04 (by decide)), if_neg (hne 0x05 (by decide)),
    if_neg (hne 0x06 (by decide)), if_neg (hne 0x07 (by decide)), if_neg (hne 0x08 (by decide)),
    if_neg (hne 0x09 (by decide))]

theorem decodeResponse_tagPdate {c : Config} (hc : c.legal = true) (a : RespArgs) :
    decodeResponse c c.tagPdate a = .rxPdate a := by
  obtain ⟨-, -, hpdate, -⟩ := c.legal_iff.1 hc
  rw [decodeResponse_of_nine_lt hpdate, if_pos rfl]

theorem decodeResponse_tagSoc {c : Config} (hc : c.legal = true) (a : RespArgs) :
    decodeResponse c c.tagSoc a = .rxSoc a := by
  obtain ⟨-, hsoc, -, hne, -⟩ := c.legal_iff.1 hc
  rw [decodeResponse_of_nine_lt hsoc, if_neg hne, if_pos rfl]

theorem wf_rxTagOther_iff {c : Config} {t : Byte} {a : RespArgs} :
    (Instr.rxTagOther t a).wf c = true ↔ 9 < t.toNat ∧ t ≠ c.tagPdate ∧ t ≠ c.tagSoc := by
  simp [Instr.wf, Config.knownTag, and_assoc]

theorem wf_rxIdMismatch_iff {c : Config} {id : StdId} {a : FrameArgs} :
    (Instr.rxIdMismatch id a).wf c = true ↔ id ≠ c.respId := bne_iff_ne

theorem decodeResponse_rxTagOther {c : Config} {t : Byte} {a : RespArgs} (h : (Instr.rxTagOther t a).wf c = true) :
    decodeResponse c t a = .rxTagOther t a := by
  obtain ⟨ht, hpdate, hsoc⟩ := wf_rxTagOther_iff.1 h
  rw [decodeResponse_of_nine_lt ht, if_neg hpdate, if_neg hsoc]

/-- Each response row spells the tag it was selected by, and row 13 is left only the unknown tags. -/
theorem encode_decodeResponse (c : Config) (t : Byte) (a : RespArgs) :
    encode c (decodeResponse c t a) = encodeResponse c t a ∧ (decodeResponse c t a).wf c = true := by
  fun_cases decodeResponse c t a with
  | case13 h0 h1 h2 h3 h4 h5 h6 h7 h8 h9 hpdate hsoc =>
    have ht : 9 < t.toNat := by bv_omega
    exact ⟨rfl, wf_rxTagOther_iff.2 ⟨ht, hpdate, hsoc⟩⟩
  | _ => subst_vars; exact ⟨rfl, rfl⟩

/-! ## The first row a word matches (R85) -/

/-- The mnemonic of the first of `rows` that `w` matches. -/
def firstOf (w : Sw) (rows : List OpRow) : Option String :=
  (rows.find? (fun r => w &&& r.mask == r.pattern)).map (·.mnemonic)

theorem firstRow_eq (c : Config) (w : Sw) : firstRow c w = firstOf w (responseRows c ++ otherRows c) := rfl

theorem firstOf_cons (w : Sw) (r : OpRow) (rows : List OpRow) :
    firstOf w (r :: rows) = if w &&& r.mask == r.pattern then some r.mnemonic else firstOf w rows := by
  rw [firstOf, List.find?_cons, firstOf]
  split <;> simp [*]

/-- Rows 1 to 12 test the tag in the decoder's order, and row 13 takes what is left. -/
theorem firstRow_of_response {c : Config} {w : Sw} (hec : swEc w = 0x01) (hA : swA w = 0) (hB : swB w = 0)
    (hId : swId w = c.respId.setWidth 32) (a : RespArgs) :
    firstRow c w = some (decodeResponse c (payloadOf (swData w)).d3 a).mnemonic := by
  simp only [firstRow_eq, responseRows, otherRows, List.cons_append, List.nil_append, firstOf_cons, respRow_match,
    tagOtherRow_match, hec, hA, hB, hId, true_and, decide_eq_true_eq, if_true, decodeResponse,
    apply_ite Instr.mnemonic, apply_ite some]
  rfl

/-- A word that is no response matches none of rows 1 to 13, and rows 14 to 22 test its class, A and B. -/
theorem firstRow_of_no_response {c : Config} {w : Sw}
    (h : ¬ (swEc w = 0x01 ∧ swA w = 0 ∧ swB w = 0 ∧ swId w = c.respId.setWidth 32)) :
    firstRow c w =
      if swEc w = 0x01 ∧ swA w = 0 ∧ swB w = 0 then some "RX_ID_MISMATCH"
      else if swEc w = 0x01 ∧ swA w = 0 ∧ swB w = 1 then some "RX_EXT_Q0"
      else if swEc w = 0x01 ∧ swA w = 1 ∧ swB w = 1 then some "RX_EXT_Q1"
      else if swEc w = 0x01 ∧ swA w = 1 ∧ swB w = 0 then some "RX_STD_Q1"
      else if swEc w = 0x02 ∧ swA w = 0 then some "TICK_MS"
      else if swEc w = 0x02 ∧ swA w = 1 then some "TICK_DS"
      else if swEc w = 0x03 then some "LOOP"
      else if swEc w = 0x04 then some "TRESET"
      else if swEc w = 0x05 then some "ACK"
      else firstOf w ((otherRows c).drop 10) := by
  have hresp (n : String) (t : Byte) : (w &&& (respRow c n t).mask == (respRow c n t).pattern) = false := by
    rw [respRow_match]
    exact decide_eq_false fun ⟨hec, hA, hB, hId, _⟩ => h ⟨hec, hA, hB, hId⟩
  simp only [firstRow_eq, responseRows, otherRows, List.cons_append, List.nil_append, List.drop_succ_cons,
    List.drop_zero, firstOf_cons, hresp, tagOtherRow_match, headerRow_match, tickRow_match, classRow_match, h,
    decide_eq_true_eq, decide_false, Bool.false_eq_true, if_false]

end Sys2Proof

namespace Sys2Proof.Machine

/-! ## The words of the events (R83, R84) -/

/-- The word of a frame drained from queue `q` (R80, R83). -/
def rxWord (q : Queue) (id : CanId) (a : FrameArgs) : Sw :=
  encodeRx q.code (canIdBits id).1 a.rtr a.dlc (canIdBits id).2 a.data

/-- The word of ACK (43_polling_fsm.md R219). -/
def ackWord : Sw := assemble .ack

/-- The words of the block's input alphabet, one constructor for each event class (R83). -/
inductive EventWord : Sw → Prop
  | rx (q : Queue) (id : CanId) (a : FrameArgs) : EventWord (rxWord q id a)
  | tick (g : Gran) : EventWord (tickWord g)
  | loop : EventWord loopWord
  | treset (j : Fin nSlots) (g : Gran) : EventWord (tresetWord j g)
  | ack : EventWord ackWord

section Fields

variable (q : Queue) (id : CanId) (a : FrameArgs) (j : Fin nSlots) (g : Gran)

@[simp] theorem swEc_rxWord : swEc (rxWord q id a) = 0x01 := swEc_mkSw ..
@[simp] theorem swA_rxWord : swA (rxWord q id a) = q.code := swA_mkSw ..
@[simp] theorem swB_rxWord : swB (rxWord q id a) = (canIdBits id).1 := swB_mkSw ..
@[simp] theorem swC_rxWord : swC (rxWord q id a) = codeOfBit a.rtr := swC_mkSw ..
@[simp] theorem swDlc_rxWord : swDlc (rxWord q id a) = BitVec.ofNat 4 a.dlc.val := swDlc_mkSw ..
@[simp] theorem swId_rxWord : swId (rxWord q id a) = (canIdBits id).2 := swId_mkSw ..
@[simp] theorem payloadOf_rxWord : payloadOf (swData (rxWord q id a)) = a.data := by
  rw [rxWord, encodeRx, swData_mkSw, payloadOf_bits]
@[simp] theorem frameArgsOf_rxWord : frameArgsOf (rxWord q id a) = a := frameArgsOf_encodeRx ..
@[simp] theorem respArgsOf_rxWord : respArgsOf (rxWord q id a) = a.withoutTag :=
  congrArg FrameArgs.withoutTag (frameArgsOf_rxWord q id a)

@[simp] theorem swEc_tickWord : swEc (tickWord g) = 0x02 := swEc_mkSw ..
@[simp] theorem swA_tickWord : swA (tickWord g) = g.code := swA_mkSw ..

@[simp] theorem swEc_loopWord : swEc loopWord = 0x03 := swEc_mkSw ..

@[simp] theorem swEc_tresetWord : swEc (tresetWord j g) = 0x04 := swEc_mkSw ..
@[simp] theorem slotOf_tresetWord : slotOf (tresetWord j g) = j := by
  apply Fin.ext
  rw [slotOf, tresetWord, assemble, swB_mkSw, ofNat4_slot]
  exact Nat.mod_eq_of_lt j.isLt
@[simp] theorem granOf_tresetWord : granOf (tresetWord j g) = g := by
  rw [granOf, tresetWord, assemble, swA_mkSw]
  cases g <;> rfl

@[simp] theorem swEc_ackWord : swEc ackWord = 0x05 := swEc_mkSw ..

end Fields

theorem canIdBits_ide_le (id : CanId) : (canIdBits id).1.toNat ≤ 1 := by
  cases id
  exacts [Nat.zero_le 1, Nat.le_refl 1]

/-- A frame type and an identifier within its range are those of a `CanId` (R84 WF_IDE, WF_ID). -/
theorem canIdBits_of_range {ide : BitVec 4} {x : Word}
    (h : ide = 0 ∧ x.toNat < 0x800 ∨ ide = 1 ∧ x.toNat < 2 ^ 29) : ∃ id : CanId, canIdBits id = (ide, x) := by
  rcases h with ⟨rfl, hx⟩ | ⟨rfl, hx⟩
  · exact ⟨.std (x.setWidth 11), by rw [canIdBits, stdId_back hx]⟩
  · exact ⟨.ext (x.setWidth 29), by rw [canIdBits, extId_back hx]⟩

/-- A word that fails no check is the word of an event. -/
theorem eventWord_of_failedCheck {w : Sw} (h : failedCheck w = none) : EventWord w := by
  by_cases h1 : swEc w = 0x01
  · obtain ⟨-, hq, hid, -, -⟩ := rx_word h h1
    obtain ⟨q, hq⟩ := queueCode_of_zero_or_one hq
    obtain ⟨id, hid⟩ := canIdBits_of_range hid
    have hw : rxWord q id (frameArgsOf w) = w := by rw [rxWord, hq, hid]; exact encodeRx_fields h h1
    exact hw ▸ .rx q id _
  rw [failedCheck, if_neg h1] at h
  split_ifs at h with h2 hz hg h3 hz h4 hz hg hs h5 hz
  · obtain ⟨g, hg⟩ := granCode_of_le (not_lt.1 hg)
    rw [eq_mkSw_of_low116 (not_not.1 hz), h2, ← hg]; exact .tick g
  · rw [eq_mkSw_of_low120 (not_not.1 hz), h3]; exact .loop
  · obtain ⟨g, hg⟩ := granCode_of_le (not_lt.1 hg)
    rw [eq_mkSw_of_low112 (not_not.1 hz), h4, ← hg, ← ofNat4_slotOf (not_lt.1 hs)]; exact .treset _ g
  · rw [eq_mkSw_of_low120 (not_not.1 hz), h5]; exact .ack

theorem failedCheck_rxWord (q : Queue) (id : CanId) (a : FrameArgs) : failedCheck (rxWord q id a) = none := by
  have h10 : (1 : BitVec 4) ≠ 0 := by decide
  cases id with
  | std id =>
    exact encodeRx_admitted _ _ _ (queueCode_le q) (Nat.zero_le 1) (fun _ => stdId_lt id) (fun h => absurd rfl h)
  | ext id =>
    exact encodeRx_admitted _ _ _ (queueCode_le q) (Nat.le_refl 1) (fun h => absurd h h10) (fun _ => extId_lt id)

theorem failedCheck_tickWord (g : Gran) : failedCheck (tickWord g) = none := by cases g <;> decide

theorem failedCheck_tresetWord (j : Fin nSlots) (g : Gran) : failedCheck (tresetWord j g) = none := by
  cases g <;> revert j <;> decide

/-- The class code of the output record is no event's (R84 WF_EC). -/
theorem failedCheck_of_txClass {w : Sw} (h : swEc w = 0x80) : failedCheck w = some .wfEc := by
  rw [failedCheck, h]; rfl

/-! ## Decoding the words of the events (R85, R90) -/

/-- The row of a frame drained from queue `q`: by queue and frame type, then by identifier, then by tag (R90). -/
def rxEvent (c : Config) (a : FrameArgs) : Queue → CanId → Instr
  | .primary, .std id => if id = c.respId then decodeResponse c a.data.d3 a.withoutTag else .rxIdMismatch id a
  | .primary, .ext id => .rxExtQ0 id a
  | .secondary, .std id => .rxStdQ1 id a
  | .secondary, .ext id => .rxExtQ1 id a

/-- The row of a tick (R90). -/
def tickRow : Gran → Instr
  | .ms => .tickMs
  | .ds => .tickDs

theorem decodeRx_rxWord (c : Config) (q : Queue) (id : CanId) (a : FrameArgs) :
    decodeRx c (rxWord q id a) = rxEvent c a q id := by
  have h10 : (1 : BitVec 4) ≠ 0 := by decide
  rw [decodeRx, frameArgsOf_rxWord, respArgsOf_rxWord, swA_rxWord, swB_rxWord, swId_rxWord, payloadOf_rxWord]
  cases id with
  | std id => cases q <;> simp only [Queue.code, canIdBits, if_true, if_neg h10, stdId_inj, stdId_narrow, rxEvent]
  | ext id => cases q <;> simp only [Queue.code, canIdBits, if_true, if_neg h10, extId_narrow, rxEvent]

theorem decode_rxWord (c : Config) (q : Queue) (id : CanId) (a : FrameArgs) :
    decode c (rxWord q id a) = .ok (rxEvent c a q id) := by
  rw [decode_of_admitted (failedCheck_rxWord q id a), decodeInput, if_pos (swEc_rxWord q id a), decodeRx_rxWord]

theorem decode_encodeResponse (c : Config) (t : Byte) (a : RespArgs) :
    decode c (encodeResponse c t a) = .ok (decodeResponse c t a) :=
  (decode_rxWord c .primary (.std c.respId) (a.withTag t)).trans (congrArg _ (if_pos rfl))

theorem decode_tickWord (c : Config) (g : Gran) : decode c (tickWord g) = .ok (tickRow g) := by
  cases g
  exacts [decode_tickWord_ms c, decode_tickWord_ds c]

theorem decode_tresetWord (c : Config) (j : Fin nSlots) (g : Gran) : decode c (tresetWord j g) = .ok (.treset j g) := by
  rw [decode_of_admitted (failedCheck_tresetWord j g), decodeInput, swEc_tresetWord, slotOf_tresetWord,
    granOf_tresetWord]
  rfl

theorem decode_ackWord (c : Config) : decode c ackWord = .ok .ack := (decode_of_admitted (by decide)).trans rfl

/-- Every well-formed instruction is decoded from its own word, row by row. -/
theorem decode_encode {c : Config} {i : Instr} (hc : c.legal = true) (hi : i.wf c = true) :
    decode c (encode c i) = .ok i := by
  cases i with
  | rxPdate a => exact (decode_encodeResponse ..).trans (congrArg _ (decodeResponse_tagPdate hc a))
  | rxSoc a => exact (decode_encodeResponse ..).trans (congrArg _ (decodeResponse_tagSoc hc a))
  | rxTagOther t a => exact (decode_encodeResponse ..).trans (congrArg _ (decodeResponse_rxTagOther hi))
  | rxIdMismatch id a =>
    exact (decode_rxWord c .primary (.std id) a).trans (congrArg _ (if_neg (wf_rxIdMismatch_iff.1 hi)))
  | rxExtQ0 id a => exact decode_rxWord c .primary (.ext id) a
  | rxExtQ1 id a => exact decode_rxWord c .secondary (.ext id) a
  | rxStdQ1 id a => exact decode_rxWord c .secondary (.std id) a
  | tickMs => exact decode_tickWord c .ms
  | tickDs => exact decode_tickWord c .ds
  | loop => exact decode_loopWord c
  | treset j g => exact decode_tresetWord c j g
  | ack => exact decode_ackWord c
  | txReq p => exact decode_txRecord c p
  | rxCell0 | rxCell1 | rxCell2 | rxCell3 | rxCell4 | rxCell5 | rxCell6 | rxCell7 | rxCell8 | rxHv =>
    exact (decode_encodeResponse ..).trans rfl

/-! ## What a decoded word spells (R83 to R85) -/

theorem encode_rxEvent (c : Config) (a : FrameArgs) (q : Queue) (id : CanId) :
    encode c (rxEvent c a q id) = rxWord q id a ∧ (rxEvent c a q id).wf c = true := by
  fun_cases rxEvent c a q id with
  | case1 => exact encode_decodeResponse c a.data.d3 a.withoutTag
  | case2 id h => exact ⟨rfl, wf_rxIdMismatch_iff.2 h⟩
  | case3 | case4 | case5 => exact ⟨rfl, rfl⟩

theorem firstRow_rxWord (c : Config) (q : Queue) (id : CanId) (a : FrameArgs) :
    firstRow c (rxWord q id a) = some (rxEvent c a q id).mnemonic := by
  fun_cases rxEvent c a q id with
  | case1 =>
    have h := firstRow_of_response (swEc_rxWord ..) (swA_rxWord ..) (swB_rxWord ..)
      (swId_rxWord .primary (.std c.respId) a) a.withoutTag
    rwa [payloadOf_rxWord] at h
  | case2 id h =>
    rw [firstRow_of_no_response fun ⟨_, _, _, hId⟩ => h (stdId_inj.1 ((swId_rxWord ..).symm.trans hId))]
    simp [Queue.code, canIdBits, Instr.mnemonic]
  | case3 id | case4 id | case5 id =>
    rw [firstRow_of_no_response (by simp [Queue.code, canIdBits])]
    simp [Queue.code, canIdBits, Instr.mnemonic]

theorem firstRow_tickWord (c : Config) (g : Gran) : firstRow c (tickWord g) = some (tickRow g).mnemonic := by
  rw [firstRow_of_no_response (by simp)]
  cases g <;> simp [Gran.code, tickRow, Instr.mnemonic]

theorem firstRow_loopWord (c : Config) : firstRow c loopWord = some Instr.loop.mnemonic := by
  simp [firstRow_of_no_response, Instr.mnemonic]

theorem firstRow_tresetWord (c : Config) (j : Fin nSlots) (g : Gran) :
    firstRow c (tresetWord j g) = some (Instr.treset j g).mnemonic := by
  simp [firstRow_of_no_response, Instr.mnemonic]

theorem firstRow_ackWord (c : Config) : firstRow c ackWord = some Instr.ack.mnemonic := by
  simp [firstRow_of_no_response, Instr.mnemonic]

/-- The word of an event decodes to a well-formed instruction that spells it, in the first row it matches. -/
theorem decode_eventWord {w : Sw} (h : EventWord w) (c : Config) :
    ∃ i, decode c w = .ok i ∧ (encode c i = w ∧ i.wf c = true) ∧ firstRow c w = some i.mnemonic := by
  cases h with
  | rx q id a => exact ⟨_, decode_rxWord c q id a, encode_rxEvent c a q id, firstRow_rxWord c q id a⟩
  | tick g => exact ⟨_, decode_tickWord c g, by cases g <;> exact ⟨rfl, rfl⟩, firstRow_tickWord c g⟩
  | loop => exact ⟨_, decode_loopWord c, ⟨rfl, rfl⟩, firstRow_loopWord c⟩
  | treset j g => exact ⟨_, decode_tresetWord c j g, ⟨rfl, rfl⟩, firstRow_tresetWord c j g⟩
  | ack => exact ⟨_, decode_ackWord c, ⟨rfl, rfl⟩, firstRow_ackWord c⟩

/-- What decodes is an event's word or the TX record (log 6), and either is the word of its instruction. -/
theorem encode_of_decode {c : Config} {w : Sw} {i : Instr} (h : decode c w = .ok i) :
    encode c i = w ∧ i.wf c = true := by
  rcases decode_cases c w with ⟨p, hw, e⟩ | ⟨-, hf, -⟩ | ⟨r, -, e⟩
  · rw [e] at h; cases h; exact ⟨hw.symm, rfl⟩
  · obtain ⟨j, hj, hspells, -⟩ := decode_eventWord (eventWord_of_failedCheck hf) c
    rw [hj] at h; cases h; exact hspells
  · rw [e] at h; cases h

/-! ## Refused words (R84) -/

/-- A word that fails a check is refused, whether the decoder reads it as a TX record or not (log 6). -/
theorem runWord_refused {w : Sw} (h : failedCheck w ≠ none) (s : State) :
    runWord w s = .next (s.markFault .refusedStimulus) := by
  rcases decode_cases s.cfg w with ⟨p, -, e⟩ | ⟨-, hf, -⟩ | ⟨r, -, e⟩
  · rw [runWord, e]; exact exec_txReq p s
  · exact absurd hf h
  · rw [runWord, e]; rfl

theorem step_refused {s : State} {w : Sw} {rest : List Sw} (hf : s.fault = .none) (hl : s.cfg.legal = true)
    (hs : s.stim = w :: rest) (h : failedCheck w ≠ none) :
    step s = .next { s with stim := rest, fault := .refusedStimulus } := by
  rw [step_of_word hf hl hs, runWord_refused h]; rfl

theorem frameRecord_encodeRequest (c : Config) (p : Byte) : frameRecord (encodeRequest c p) = txRecord c p := rfl

/-! ## The listing of a word (R91) -/

theorem listing_rxWord (q : Queue) (id : CanId) (a : FrameArgs) :
    listing (rxWord q id a) = some (.rx (some q.code) (some (canIdBits id).1) (some (codeOfBit a.rtr))
      (some (BitVec.ofNat 4 a.dlc.val)) (canIdBits id).2 a.data) := by
  simp [listing, admitted, failedCheck_rxWord]

/-- The listing of an event's word is a line the text can spell, and encodes to the word. -/
theorem listing_eventWord {w : Sw} (h : EventWord w) : ∃ l, listing w = some l ∧ l.writable ∧ assemble l = w := by
  cases h with
  | rx q id a =>
    have hdlc : (BitVec.ofNat 4 a.dlc.val).toNat ≤ 8 := by rw [ofNat4_dlc]; omega
    exact ⟨_, listing_rxWord q id a, ⟨queueCode_le q, canIdBits_ide_le id, codeOfBit_le a.rtr, hdlc⟩, rfl⟩
  | tick g => exact ⟨.tick g, by cases g <;> decide, trivial, rfl⟩
  | loop => exact ⟨.loop, by decide, trivial, rfl⟩
  | treset j g => exact ⟨.treset (BitVec.ofNat 4 j.val) g, by cases g <;> revert j <;> decide, trivial, rfl⟩
  | ack => exact ⟨.ack, by decide, trivial, rfl⟩

theorem listing_refused {w : Sw} (h : failedCheck w ≠ none) : listing w = none := by
  simp [listing, admitted, h]

end Sys2Proof.Machine

namespace Sys2Proof.Claims

open Sys2Proof.Machine

theorem eventWord_of_passesChecks {w : Sw} (h : PassesChecks w) : EventWord w :=
  eventWord_of_failedCheck ((passesChecks_iff w).1 h)

theorem failedCheck_of_not_passesChecks {w : Sw} (h : ¬ PassesChecks w) : failedCheck w ≠ none :=
  fun hf => h ((passesChecks_iff w).2 hf)

/-- Settles O7, row by row. -/
theorem decodeOfEncodeIsTheInstruction : Obligations.DecodeOfEncodeIsTheInstruction :=
  fun _ _ => decode_encode

/-- Settles O2: the decoder refuses the word, or reads it as the TX record, which is refused too. -/
theorem refusedWordSetsOnlyTheFaultMark : Obligations.RefusedWordSetsOnlyTheFaultMark :=
  fun _ _ _ hf hl hs hw => step_refused hf hl hs (failedCheck_of_not_passesChecks hw)

/-- Settles O8: the word is an event's or the TX record. -/
theorem encodeOfDecodeIsTheWord : Obligations.EncodeOfDecodeIsTheWord :=
  fun _ _ _ => encode_of_decode

/-- Settles O9: the row by the kind of the word, and its class by the EC byte. -/
theorem firstMatchingRowSelectsTheEvent : Obligations.FirstMatchingRowSelectsTheEvent := by
  intro c w hw
  obtain ⟨i, hi, -, hrow⟩ := decode_eventWord (eventWord_of_passesChecks hw) c
  have hclass : swEc w = i.eventClass.code := decode_class hi
  have hinput : i.eventClass ≠ .tx := by
    intro htx
    rw [htx] at hclass
    exact absurd ((passesChecks_iff w).1 hw) (by simp [failedCheck_of_txClass hclass])
  refine ⟨i, hi, bne_iff_ne.2 hinput, hrow, ?_⟩
  show swEc w = 0x01 ↔ _
  rw [hclass, eventClassCode_eq_rx]

/-- Settles O35: the record fails WF_EC. -/
theorem txRecordAsAnInputIsRefused : Obligations.TxRecordAsAnInputIsRefused := by
  intro s p rest hf hl hs
  rw [frameRecord_encodeRequest] at hs
  exact ⟨step_refused hf hl hs (by simp [failedCheck_of_txClass]), exec_txReq p s⟩

/-- Settles O53, by the class of the word. -/
theorem listingOfAWordEncodesToIt : Obligations.ListingOfAWordEncodesToIt := by
  refine fun w => ⟨fun hw => ?_, fun hw => listing_refused (failedCheck_of_not_passesChecks hw)⟩
  obtain ⟨l, hl, -, hword⟩ := listing_eventWord (eventWord_of_passesChecks hw)
  exact ⟨l, hl, hword⟩

/-- Settles O54: the printed listing parses to the line it was printed from. -/
theorem textOfAListingAssemblesToItsWord : Obligations.TextOfAListingAssemblesToItsWord := by
  refine fun c w => ⟨fun hw => ?_, fun hw => ?_⟩
  · obtain ⟨l, hl, hwritable, hword⟩ := listing_eventWord (eventWord_of_passesChecks hw)
    exact ⟨printLine l, by rw [listingText, hl]; rfl, by rw [assembleText_printLine c hwritable, hword]⟩
  · rw [listingText, listing_refused (failedCheck_of_not_passesChecks hw)]; rfl

/-- Settles O1: a step takes the word and runs it. -/
theorem stepRunsTheDecodedInstruction : Obligations.StepRunsTheDecodedInstruction := by
  intro s w rest i hf hl hs hi
  have hi' : decode (s.withStim rest).cfg w = .ok i := hi
  rw [step_of_word hf hl hs, runWord, hi']; rfl

/-- In the reference configuration a word decodes to the instruction it is the word of. -/
theorem decode_reference {w : Sw} {i : Instr} (hw : encode Config.reference i = w)
    (hi : i.wf Config.reference = true) : decode Config.reference w = .ok i :=
  hw ▸ decode_encode (by decide) hi

/-- Settles O6: each word is the word of its instruction. -/
theorem wordsOfTheSpecDecodeToTheirRows : Obligations.WordsOfTheSpecDecodeToTheirRows := by
  refine ⟨?_, ?_, ?_, ?_, ?_, ?_, ?_, ?_, ?_, ?_⟩
  all_goals exact decode_reference (by decide) (by decide)

/-- Settles O55, by evaluating the encoder. -/
theorem workedEncodingsAreAsWritten : Obligations.WorkedEncodingsAreAsWritten := by
  unfold Obligations.WorkedEncodingsAreAsWritten
  decide

end Sys2Proof.Claims

/-! # Proofs: the timer service (40_timer_service.md R120 to R131) -/

namespace Sys2Proof.Machine

/-! ## One LOOP pass (R122 to R126) -/

/-- A LOOP pass leaves each sampled level equal to its toggle flag (R122, R123). -/
theorem loop_levels (s : State) : (psmStep (sampleBoth s)).lMs = s.tMs ∧ (psmStep (sampleBoth s)).lDs = s.tDs := by
  rcases loop_cases s with ⟨-, p, e, -⟩ | ⟨-, -, e⟩ | ⟨-, -, p, pdf, -, e⟩ <;> rw [e] <;> exact ⟨rfl, rfl⟩

/-- The samples of one pass keep a counter at or below CEIL, or raise it by one (R124). -/
theorem sampledSlot_cnt_cases {s : State} {j : Fin nSlots} (h : s.slots[j].cnt.toNat ≤ s.cfg.ceil.toNat) :
    (sampledSlot s j).cnt = s.slots[j].cnt ∨
      (sampledSlot s j).cnt.toNat = s.slots[j].cnt.toNat + 1 ∧ (sampledSlot s j).cnt.toNat ≤ s.cfg.ceil.toNat := by
  obtain ⟨counted, kept⟩ := sampledSlot_spec s j
  by_cases hc : j.val < s.cfg.numSlots.val ∧ s.slots[j].run = true ∧ edgePending s.slots[j].gran s = true
  · obtain ⟨hcnt, -⟩ := counted hc
    by_cases hlt : s.slots[j].cnt.toNat < s.cfg.ceil.toNat
    · exact .inr (by omega)
    · exact .inl (BitVec.eq_of_toNat_eq (by omega))
  · exact .inl (congrArg TimerSlot.cnt (kept hc))

/-! ## TICK words in a row (R120, R121, R129) -/

/-- The state after the ticks `gs`: each toggle flag is inverted by the parity of its own ticks. -/
def State.toggledBy (gs : List Gran) (s : State) : State :=
  { s with
    tMs := s.tMs ^^ decide (gs.count .ms % 2 = 1)
    tDs := s.tDs ^^ decide (gs.count .ds % 2 = 1) }

theorem decide_odd_succ (n : Nat) : decide ((n + 1) % 2 = 1) = !decide (n % 2 = 1) := by
  rcases Nat.mod_two_eq_zero_or_one n with h | h <;> simp [Nat.add_mod, h]

@[simp] theorem toggledBy_nil (s : State) : s.toggledBy [] = s := by simp [State.toggledBy]

theorem toggledBy_cons (g : Gran) (gs : List Gran) (s : State) :
    s.toggledBy (g :: gs) = (invertToggle g s).toggledBy gs := by
  cases g <;> simp [State.toggledBy, invertToggle, decide_odd_succ, State.writeTMs, State.writeTDs]

/-- An odd number of ticks of a granularity turns its pending edge round (R129). -/
theorem edgePending_toggledBy (g : Gran) (gs : List Gran) (s : State) :
    edgePending g (s.toggledBy gs) = (edgePending g s ^^ decide (gs.count g % 2 = 1)) := by
  cases g <;> exact Bool.xor_right_comm ..

/-- After k ticks from a level without an edge, an edge is pending exactly when k is odd (R129). -/
theorem edgePending_replicate {g : Gran} {s : State} (h : toggleFlag g s = sampledLevel g s) (k : Nat) :
    edgePending g (s.toggledBy (List.replicate k g)) = decide (k % 2 = 1) := by
  rw [edgePending_toggledBy, List.count_replicate_self]
  simp [edgePending, h]

@[simp] theorem invertToggle_fault (g : Gran) (s : State) : (invertToggle g s).fault = s.fault := by cases g <;> rfl
@[simp] theorem invertToggle_cfg (g : Gran) (s : State) : (invertToggle g s).cfg = s.cfg := by cases g <;> rfl
@[simp] theorem invertToggle_stim (g : Gran) (s : State) : (invertToggle g s).stim = s.stim := by cases g <;> rfl

theorem withStim_invertToggle (g : Gran) (l : List Sw) (s : State) :
    (invertToggle g s).withStim l = invertToggle g (s.withStim l) := by cases g <;> rfl

/-- A run over TICK words ends with the flags inverted by parity and the words taken. -/
theorem runSteps_tickWords {gs : List Gran} {rest : List Sw} {s : State} (hf : s.fault = .none)
    (hl : s.cfg.legal = true) (hs : s.stim = gs.map tickWord ++ rest) :
    runSteps gs.length s = .next ((s.withStim rest).toggledBy gs) := by
  induction gs generalizing s with
  | nil =>
    subst hs
    rw [toggledBy_nil]; rfl
  | cons g gs ih =>
    have hstep := step_tickWord hf hl hs
    rw [List.length_cons, runSteps_succ hstep, ih (by simpa using hf) (by simpa using hl) (by simp), toggledBy_cons,
      withStim_invertToggle]
    rfl

/-! ## Waiting in ARMED (R131, 43_polling_fsm.md R212) -/

/-- The PSM waits in ARMED: no edge is pending and the poll counter is below its period, so a LOOP pass has nothing to
count and no transition to make. -/
structure Waiting (s : State) : Prop where
  fault_none : s.fault = .none
  legal : s.cfg.legal = true
  armed : s.psm = .armed
  no_edge : ∀ g, edgePending g s = false
  below_period : s.slots[s.cfg.pollSlot].cnt.toNat < s.slots[s.cfg.pollSlot].period.toNat

theorem sampleBoth_of_no_edge {s : State} (h : ∀ g, edgePending g s = false) : sampleBoth s = s := by
  simp [sampleBoth, sample, h]

/-- A LOOP pass of a waiting state changes nothing. -/
theorem loop_of_waiting {s : State} (h : Waiting s) : psmStep (sampleBoth s) = s := by
  have hgate : s.slots[s.cfg.pollSlot].reached = false := decide_eq_false (Nat.not_le.2 h.below_period)
  rw [sampleBoth_of_no_edge h.no_edge, psmStep, h.armed]
  exact if_neg (Bool.eq_false_iff.1 hgate)

/-- An RX event keeps a waiting state waiting: it writes the readings only (41_receive_demux.md R170). -/
theorem waiting_of_sameOutsideReadings {s t : State} (h : Waiting s) (hst : Claims.SameOutsideReadings s t) :
    Waiting t := by
  obtain ⟨⟨-, -, hpsm, -, hlMs, hlDs⟩, -, htMs, htDs, hslots, hfault, hcfg, -⟩ := hst
  refine ⟨hfault.trans h.fault_none, hcfg ▸ h.legal, hpsm.trans h.armed, fun g => ?_, ?_⟩
  · have hedge := h.no_edge g
    cases g <;> simpa [edgePending, toggleFlag, sampledLevel, hlMs, hlDs, htMs, htDs] using hedge
  · simpa only [hslots, hcfg] using h.below_period

/-- In a waiting state every event but TICK, TRESET and the refused TX record keeps the wait, the slots and TXLOG. -/
theorem exec_waiting {i : Instr} {s t : State} (h : exec i s = .next t) (hw : Waiting s) (htick : i.eventClass ≠ .tick)
    (htreset : i.eventClass ≠ .treset) (htx : i.eventClass ≠ .tx) :
    Waiting t ∧ t.slots = s.slots ∧ t.txLog = s.txLog := by
  cases effect_of_exec h with
  | @rx _ x =>
    obtain ⟨⟨-, -, -, htxLog, -⟩, -⟩ := rxReturn_result_frame x s
    exact ⟨waiting_of_sameOutsideReadings hw (rxReturn_result_frame x s), rxReturn_result_slots x s, htxLog⟩
  | loop => rw [loop_of_waiting hw]; exact ⟨hw, rfl, rfl⟩
  | ack => exact ⟨{ hw with }, rfl, rfl⟩
  | tickMs | tickDs => exact absurd rfl htick
  | treset => exact absurd rfl htreset
  | txReq => exact absurd rfl htx

/-- The same of the word of such an event, taken from the words to come. -/
theorem step_waiting {s : State} {w : Sw} {rest : List Sw} (hw : Waiting s) (hs : s.stim = w :: rest)
    (hpass : failedCheck w = none) (htick : swEc w ≠ EventClass.tick.code) (htreset : swEc w ≠ EventClass.treset.code) :
    ∃ t, step s = .next t ∧ Waiting t ∧ t.stim = rest ∧ t.slots = s.slots ∧ t.txLog = s.txLog := by
  have hdecode : decode s.cfg w = .ok (decodeInput s.cfg w) := decode_of_admitted hpass
  have hclass := decode_class hdecode
  have htx : swEc w ≠ EventClass.tx.code := fun h => by simp [failedCheck_of_txClass h] at hpass
  obtain ⟨t, ht⟩ := exec_completes (decodeInput s.cfg w) (s.withStim rest)
  obtain ⟨hwait, hslots, htxLog⟩ := exec_waiting ht { hw with } (fun h => htick (by rw [hclass, h]))
    (fun h => htreset (by rw [hclass, h])) (fun h => htx (by rw [hclass, h]))
  refine ⟨t, ?_, hwait, exec_stim ht, hslots, htxLog⟩
  rw [step_of_word hw.fault_none hw.legal hs, runWord, State.withStim_cfg, hdecode]
  exact ht

/-- A waiting state waits through any run of such words. -/
theorem runSteps_waiting {ws rest : List Sw} {s : State} (hw : Waiting s) (hs : s.stim = ws ++ rest)
    (hws : ∀ w ∈ ws, failedCheck w = none ∧ swEc w ≠ EventClass.tick.code ∧ swEc w ≠ EventClass.treset.code) :
    ∃ t, runSteps ws.length s = .next t ∧ Waiting t ∧ t.stim = rest ∧ t.slots = s.slots ∧ t.txLog = s.txLog := by
  induction ws generalizing s with
  | nil => exact ⟨s, rfl, hw, hs, rfl, rfl⟩
  | cons w ws ih =>
    obtain ⟨⟨hpass, htick, htreset⟩, hrest⟩ := List.forall_mem_cons.1 hws
    obtain ⟨u, hstep, hwait, hstim, hslots, htxLog⟩ := step_waiting hw hs hpass htick htreset
    obtain ⟨t, hrun, ht, hstim', hslots', htxLog'⟩ := ih hwait hstim hrest
    exact ⟨t, (runSteps_succ hstep).trans hrun, ht, hstim', hslots'.trans hslots, htxLog'.trans htxLog⟩

end Sys2Proof.Machine

namespace Sys2Proof.Claims

open Sys2Proof.Machine

/-- Settles O25: the word is the model's TRESET word, and the row writes its slot only. -/
theorem tresetRearmsItsSlotOnly : Obligations.TresetRearmsItsSlotOnly := by
  intro slot g s
  have hword : 0x04#8 ++ (if g = .ms then 0#4 else 1#4) ++ BitVec.ofNat 4 slot.val ++ 0#112 = tresetWord slot g := by
    cases g <;> revert slot <;> decide
  refine ⟨hword ▸ decode_tresetWord s.cfg slot g, _, exec_treset slot g s, rfl, ?_⟩
  rw [State.writeSlots_slots, slot_set_self]
  exact ⟨rfl, rfl, rfl, rfl, rfl, fun j hj => slot_set_ne _ _ hj⟩

/-- Settles O26, slot by slot, by what both samples do to a slot. -/
theorem loopCountsOneTickPerEdge : Obligations.LoopCountsOneTickPerEdge := by
  intro s
  obtain ⟨hlMs, hlDs⟩ := loop_levels s
  obtain ⟨-, htMs, htDs, -, -⟩ := loop_frame s
  refine ⟨_, exec_loop s, hlMs, hlDs, htMs, htDs, fun j hj => ?_⟩
  have hspec := sampledSlot_spec s j
  simp only [edgePending_iff] at hspec
  rw [loop_slot s j hj]
  exact ⟨hspec.1, hspec.2, sampledSlot_run s j, sampledSlot_gran s j, sampledSlot_period s j⟩

/-- Settles O27, by the four things an event can do to a slot. -/
theorem counterDecreasesOnlyOnReset : Obligations.CounterDecreasesOnlyOnReset := by
  intro i s t j hle h
  rcases exec_slot_cases h j with e | ⟨-, e⟩ | ⟨g, hi, e⟩ | ⟨hi, hpsm, hj, e⟩ <;> rw [e]
  · exact .inl (.inl rfl)
  · exact .inl (sampledSlot_cnt_cases hle)
  · exact .inr ⟨.inl ⟨g, hi⟩, rfl⟩
  · exact .inr ⟨.inr ⟨hi, hpsm, hj.symm⟩, rfl⟩

/-- Settles O28: the ticks leave an edge pending exactly when their number is odd, and the LOOP pass counts that edge. -/
theorem missedEdgesCountByParity : Obligations.MissedEdgesCountByParity := by
  intro g k s rest j hf hl hlevel hs hj hrun hgran hpoll
  rw [← List.map_replicate] at hs
  have hticks := runSteps_tickWords hf hl hs
  rw [List.length_replicate] at hticks
  have hloop := step_loopWord (s := (s.withStim (loopWord :: rest)).toggledBy (List.replicate k g)) hf hl rfl
  set u := ((s.withStim (loopWord :: rest)).toggledBy (List.replicate k g)).withStim rest
  have hedge : edgePending u.slots[j].gran u = decide (k % 2 = 1) :=
    (congrArg (edgePending · u) hgran).trans (edgePending_replicate (s := s.withStim rest) hlevel k)
  obtain ⟨-, -, -, -, hstim⟩ := loop_frame u
  obtain ⟨counted, kept⟩ := sampledSlot_spec u j
  refine ⟨_, (runSteps_add hticks).trans (runSteps_succ hloop), hstim, ?_⟩
  rw [loop_slot u j hpoll]
  rw [hedge, decide_eq_true_iff] at counted kept
  split
  · next hodd => exact (counted ⟨hj, hrun, hodd⟩).1
  · next heven => rw [kept fun h => heven h.2.2]; rfl

/-- Settles O40: the state is a waiting one, and the words keep it so. -/
theorem withoutTicksThePollerWaits : Obligations.WithoutTicksThePollerWaits := by
  intro s ws rest hf hl hpsm hms hds hbelow hs hws
  have hcalm : ∀ g, edgePending g s = false := by
    intro g
    cases g <;> simp [edgePending, toggleFlag, sampledLevel, hms, hds]
  have hwords : ∀ w ∈ ws, failedCheck w = none ∧ swEc w ≠ EventClass.tick.code ∧ swEc w ≠ EventClass.treset.code :=
    fun w hw => (hws w hw).imp_left (passesChecks_iff w).1
  obtain ⟨t, hrun, hwait, hstim, hslots, htxLog⟩ := runSteps_waiting ⟨hf, hl, hpsm, hcalm, hbelow⟩ hs hwords
  exact ⟨t, hrun, hstim, hwait.armed, hslots, htxLog⟩

/-- Settles O24: the words are the model's TICK words, and each row is the one write of its flag. -/
theorem tickInvertsItsToggleFlag : Obligations.TickInvertsItsToggleFlag := by
  intro s
  have hms : (0x02000000000000000000000000000000 : Sw) = tickWord .ms := by decide
  have hds : (0x02100000000000000000000000000000 : Sw) = tickWord .ds := by decide
  rw [hms, hds]
  exact ⟨decode_tickWord_ms s.cfg, decode_tickWord_ds s.cfg, rfl, rfl⟩

end Sys2Proof.Claims

/-! # Proofs: the receive demultiplexer, its rows and its classification (41_receive_demux.md) -/

namespace Sys2Proof.Machine

/-! ## The tag's destination and the tag's row (R86, R90, R152) -/

theorem decodeResponse_cell (c : Config) (k : Fin nCells) (a : RespArgs) :
    decodeResponse c (BitVec.ofNat 8 k.val) a = cellRow k a := by
  fin_cases k <;> rfl

theorem rowAction_cellRow (c : Config) (k : Fin nCells) (a : RespArgs) :
    rowAction c (cellRow k a) = some (.cell k (be16 a.d4 a.d5)) := by
  fin_cases k <;> rfl

/-- The dispatch tests TAG_SOC first, and a legal TAG_SOC is no cell's tag. -/
theorem tagDest_cell {c : Config} (hc : c.legal = true) (k : Fin nCells) :
    tagDest c (BitVec.ofNat 8 k.val) = .cell k := by
  obtain ⟨-, hsoc, -⟩ := c.legal_iff.1 hc
  have hk : (BitVec.ofNat 8 k.val).toNat = k.val := by
    rw [BitVec.toNat_ofNat, Nat.mod_eq_of_lt (k.isLt.trans (by decide))]
  have hlt : k.val < 9 := k.isLt
  have hne : BitVec.ofNat 8 k.val ≠ c.tagSoc := by intro h; rw [← h] at hsoc; omega
  rw [tagDest, if_neg hne, dif_pos (hk.trans_lt k.isLt)]
  exact congrArg Dest.cell (Fin.ext hk)

theorem tagDest_hv {c : Config} (hc : c.legal = true) : tagDest c 0x09 = .hv := by
  obtain ⟨-, hsoc, -⟩ := c.legal_iff.1 hc
  have hne : (0x09 : Byte) ≠ c.tagSoc := by intro h; rw [← h] at hsoc; exact absurd hsoc (by decide)
  rw [tagDest, if_neg hne]; rfl

/-- Above 0x09 the two special tags differ, so their order in the dispatch does not matter. -/
theorem tagDest_of_nine_lt {c : Config} (hc : c.legal = true) {t : Byte} (ht : 9 < t.toNat) :
    tagDest c t = if t = c.tagPdate then .pdate else if t = c.tagSoc then .soc else .nothing := by
  obtain ⟨-, -, -, hne, -⟩ := c.legal_iff.1 hc
  have hhv : t ≠ 0x09 := by rintro rfl; exact absurd ht (by decide)
  rw [tagDest, dif_neg (show ¬ t.toNat < 9 by omega), if_neg hhv]
  by_cases hsoc : t = c.tagSoc
  · rw [if_pos hsoc, if_neg (hsoc ▸ hne), if_pos hsoc]
  · rw [if_neg hsoc, if_neg hsoc]

/-- The row a tag selects has the action of the destination the tag selects (R90, R152). -/
theorem rowAction_decodeResponse {c : Config} (hc : c.legal = true) (t : Byte) (a : RespArgs) :
    rowAction c (decodeResponse c t a) = some (payloadAction c (a.withTag t).data) := by
  rcases lt_trichotomy t.toNat 9 with ht | ht | ht
  · obtain ⟨k, rfl⟩ : ∃ k : Fin nCells, t = BitVec.ofNat 8 k.val := ⟨⟨t.toNat, ht⟩, by simp⟩
    rw [decodeResponse_cell, rowAction_cellRow]
    simp only [payloadAction, RespArgs.withTag, tagDest_cell hc]
  · obtain rfl : t = 0x09 := BitVec.eq_of_toNat_eq ht
    simp only [payloadAction, RespArgs.withTag, tagDest_hv hc]; rfl
  · simp only [decodeResponse_of_nine_lt ht, payloadAction, RespArgs.withTag, tagDest_of_nine_lt hc ht]
    split_ifs <;> rfl

/-- Under DISCARD the secondary queue's standard row discards by type (R169). -/
theorem rowAction_rxStdQ1_discard {c : Config} (hp : c.q1StdPolicy = .discard) (id : StdId) (a : FrameArgs) :
    rowAction c (.rxStdQ1 id a) = some .discardType := by
  rw [rowAction, hp]

/-- Under DECODE it does what the primary queue does with a standard frame (R169). -/
theorem rowAction_rxStdQ1_decode {c : Config} (hp : c.q1StdPolicy = .decode) (id : StdId) (a : FrameArgs) :
    rowAction c (.rxStdQ1 id a) = some (stdAction c id a.data) := by
  rw [rowAction, hp]

/-- The row of a received frame has the action of the frame's classification (R151, R169). -/
theorem rowAction_rxEvent {c : Config} (hc : c.legal = true) (q : Queue) (id : CanId) (a : FrameArgs) :
    rowAction c (rxEvent c a q id) = some (frameAction c ⟨q, ⟨id, a.rtr, a.dlc, a.data⟩⟩) := by
  fun_cases rxEvent c a q id with
  | case1 => exact (rowAction_decodeResponse hc ..).trans (congrArg some (if_pos rfl).symm)
  | case2 id h => exact congrArg some (if_neg h).symm
  | case3 | case4 | case5 => rfl

/-! ## An admitted RX word and the frame it presents (R80, R83) -/

theorem rxFrameOf_rxWord (q : Queue) (id : CanId) (a : FrameArgs) :
    rxFrameOf (rxWord q id a) = ⟨q, ⟨id, a.rtr, a.dlc, a.data⟩⟩ := by
  have hargs : frameArgsOf (rxWord q id a) = a := frameArgsOf_rxWord q id a
  obtain ⟨hrtr, hdlc, hdata⟩ := FrameArgs.mk.inj hargs
  rw [rxFrameOf, swA_rxWord, swB_rxWord, swId_rxWord, hrtr, hdlc, hdata]
  cases id <;> cases q <;> simp [Queue.code, canIdBits]

theorem exists_rxWord {w : Sw} (h : failedCheck w = none) (h1 : swEc w = 0x01) : ∃ q id a, w = rxWord q id a := by
  cases eventWord_of_failedCheck h with
  | rx q id a => exact ⟨q, id, a, rfl⟩
  | tick | loop | treset | ack => simp at h1

/-- An admitted RX word does what the classification does with its frame. -/
theorem runWord_rx {s : State} (hl : s.cfg.legal = true) {w : Sw} (h : failedCheck w = none) (h1 : swEc w = 0x01) :
    runWord w s = .next (rxReturn (demux (rxFrameOf w) s)) := by
  obtain ⟨q, id, a, rfl⟩ := exists_rxWord h h1
  rw [runWord, decode_rxWord, rxFrameOf_rxWord, demux_eq]
  exact exec_of_rowAction (rowAction_rxEvent hl q id a)

theorem step_rx {s : State} {w : Sw} {rest : List Sw} (hf : s.fault = .none) (hl : s.cfg.legal = true)
    (hs : s.stim = w :: rest) (h : failedCheck w = none) (h1 : swEc w = 0x01) :
    step s = .next (rxReturn (demux (rxFrameOf w) (s.withStim rest))) :=
  (step_of_word hf hl hs).trans (runWord_rx (s := s.withStim rest) hl h h1)

/-! ## What the classification reads (R171 to R173) -/

/-- The dispatch reads `D[3..7]` only. -/
theorem payloadAction_congr (c : Config) {d e : Payload} (h3 : d.d3 = e.d3) (h4 : d.d4 = e.d4) (h5 : d.d5 = e.d5)
    (h6 : d.d6 = e.d6) (h7 : d.d7 = e.d7) : payloadAction c d = payloadAction c e := by
  rw [payloadAction, h3, h4, h5, h6, h7]; rfl

/-- The classification reads the queue, the identifier with its frame type, and what the dispatch reads. -/
theorem frameAction_congr {c : Config} {f g : RxFrame} (hq : f.queue = g.queue) (hid : f.frame.id = g.frame.id)
    (hd : payloadAction c f.frame.data = payloadAction c g.frame.data) : frameAction c f = frameAction c g := by
  simp only [frameAction, stdAction, hq, hid, hd]

/-- Words that agree on a range agree on every range within it. -/
theorem extractLsb'_congr_of_le {n start len start' len' : Nat} {v w : BitVec n}
    (h : v.extractLsb' start len = w.extractLsb' start len) (hle : start' + len' ≤ len) :
    v.extractLsb' (start + start') len' = w.extractLsb' (start + start') len' := by
  apply BitVec.eq_of_getLsbD_eq
  intro i hi
  have hbit := congrArg (BitVec.getLsbD · (start' + i)) h
  simpa [hi, show start' + i < len by omega, Nat.add_assoc] using hbit

/-- RX words that agree on queue, frame type, identifier and `D[3..7]` present frames with the same action. -/
theorem frameAction_rxFrameOf_congr (c : Config) {v w : Sw} (hhead : v.extractLsb' 112 16 = w.extractLsb' 112 16)
    (hid : swId v = swId w) (hdata : v.extractLsb' 0 40 = w.extractLsb' 0 40) :
    frameAction c (rxFrameOf v) = frameAction c (rxFrameOf w) := by
  have hA : swA v = swA w := extractLsb'_congr_of_le (start' := 4) hhead (by omega)
  have hB : swB v = swB w := extractLsb'_congr_of_le (start' := 0) hhead (by omega)
  have hlow : (swData v).extractLsb' 0 40 = (swData w).extractLsb' 0 40 := by
    rw [swData, swData, BitVec.extractLsb'_extractLsb'_of_le (by omega),
      BitVec.extractLsb'_extractLsb'_of_le (by omega)]
    exact hdata
  have hbyte (start : Nat) (h : start + 8 ≤ 40) :
      (swData v).extractLsb' start 8 = (swData w).extractLsb' start 8 := by
    simpa using extractLsb'_congr_of_le (start' := start) hlow h
  refine frameAction_congr ?_ ?_ (payloadAction_congr c ?_ ?_ ?_ ?_ ?_)
  · simp only [rxFrameOf, hA]
  · simp only [rxFrameOf, hB, hid]
  all_goals exact hbyte _ (by omega)

/-- Two words that run alike step alike: a stop comes before the word is looked at. -/
theorem step_congr_of_runWord {v w : Sw} (h : ∀ t : State, t.cfg.legal = true → runWord v t = runWord w t)
    (s : State) (rest : List Sw) : step (s.withStim (v :: rest)) = step (s.withStim (w :: rest)) := by
  cases hr : haltReason s with
  | some r =>
    rw [step_of_haltReason (s := s.withStim (v :: rest)) hr, step_of_haltReason (s := s.withStim (w :: rest)) hr]
  | none =>
    have hf := (haltReason_none_iff s).1 hr
    by_cases hl : s.cfg.legal = true
    · rw [step_of_word (s := s.withStim (v :: rest)) hf hl rfl, step_of_word (s := s.withStim (w :: rest)) hf hl rfl]
      exact h (s.withStim rest) hl
    · rw [step_of_illegal (s := s.withStim (v :: rest)) hf hl, step_of_illegal (s := s.withStim (w :: rest)) hf hl]

/-! ## Discards (R175) -/

/-- A discard counts modulo 2^32 where the counter exists, and is recorded (R175). -/
theorem rxReturn_discard (o : RxOutcome) (s : State) :
    rxReturn (discard o s) =
      { s with
        discardCtr := if s.cfg.hasDiscardCtr then BitVec.ofNat 32 (s.discardCtr.toNat + 1) else s.discardCtr
        rxLog := s.rxLog ++ [o] } := by
  have hsucc : BitVec.ofNat 32 (s.discardCtr.toNat + 1) = s.discardCtr + 1 := by
    rw [BitVec.ofNat_add, BitVec.ofNat_toNat, BitVec.setWidth_eq]; rfl
  rw [rxReturn, discard_fst, discard_snd, hsucc]; rfl

theorem rxReturn_discard_rxLog (o : RxOutcome) (s : State) : (rxReturn (discard o s)).rxLog = s.rxLog ++ [o] := by
  rw [rxReturn_discard]

theorem rxReturn_discard_discardCtr (o : RxOutcome) (s : State) :
    (rxReturn (discard o s)).discardCtr.toNat =
      if s.cfg.hasDiscardCtr = true then (s.discardCtr.toNat + 1) % 2 ^ 32 else s.discardCtr.toNat := by
  rw [rxReturn_discard, apply_ite BitVec.toNat, BitVec.toNat_ofNat]

/-- A discard writes no value field and leaves LAST_IDX (R170, R175). -/
theorem rxReturn_discard_frame (o : RxOutcome) (s : State) :
    (rxReturn (discard o s)).cell = s.cell ∧ (rxReturn (discard o s)).hv = s.hv ∧
      (rxReturn (discard o s)).soc = s.soc ∧ (rxReturn (discard o s)).pdate = s.pdate ∧
      (rxReturn (discard o s)).lastIdx = s.lastIdx := by
  rw [rxReturn_discard]; exact ⟨rfl, rfl, rfl, rfl, rfl⟩

/-! ## The production date (R163) -/

theorem pdateWord_bitOr_toNat (d4 d5 d6 d7 : Byte) :
    (pdateWord .bitOr d4 d5 d6 d7).toNat = d4.toNat ||| d5.toNat ||| d6.toNat ||| d7.toNat := by
  rw [pdateWord, BitVec.toNat_setWidth_of_le (by omega), BitVec.toNat_or, BitVec.toNat_or, BitVec.toNat_or]

/-- A byte appended to a word is its least significant one. -/
theorem toNat_append_byte {n : Nat} (x : BitVec n) (b : Byte) : (x ++ b).toNat = x.toNat * 2 ^ 8 + b.toNat := by
  rw [BitVec.toNat_append, ← Nat.shiftLeft_add_eq_or_of_lt b.isLt, Nat.shiftLeft_eq]

theorem pdateWord_be32_toNat (d4 d5 d6 d7 : Byte) :
    (pdateWord .be32 d4 d5 d6 d7).toNat =
      d4.toNat * 2 ^ 24 + d5.toNat * 2 ^ 16 + d6.toNat * 2 ^ 8 + d7.toNat := by
  rw [pdateWord, toNat_append_byte, toNat_append_byte, toNat_append_byte]; omega

end Sys2Proof.Machine

namespace Sys2Proof.Claims

open Sys2Proof.Machine

/-- Settles O10: the tag selects the row of its cell, whose one write is the big-endian value. -/
theorem cellResponseWritesItsCell : Obligations.CellResponseWritesItsCell := by
  intro k a s
  have hcell : decodeResponse s.cfg (BitVec.ofNat 8 k.val) a = cellRow k a := decodeResponse_cell s.cfg k a
  refine ⟨(decode_encodeResponse ..).trans (congrArg _ hcell), _, exec_of_rowAction (rowAction_cellRow s.cfg k a), ?_⟩
  rw [← be16_eq]; rfl

/-- Settles O11: the two tags select their rows in a legal configuration. -/
theorem voltageAndChargeResponsesWriteTheirRegister :
    Obligations.VoltageAndChargeResponsesWriteTheirRegister := by
  intro a s hl
  have hsoc : decodeResponse s.cfg s.cfg.tagSoc a = .rxSoc a := decodeResponse_tagSoc hl a
  rw [← be16_eq]
  exact ⟨decode_encodeResponse .., (decode_encodeResponse ..).trans (congrArg _ hsoc), ⟨_, rfl, rfl⟩, _, rfl, rfl⟩

/-- Settles O12, by what each mode makes of the four bytes. -/
theorem productionDateResponseFollowsItsMode : Obligations.ProductionDateResponseFollowsItsMode := by
  intro a s hl
  have hpdate : decodeResponse s.cfg s.cfg.tagPdate a = .rxPdate a := decodeResponse_tagPdate hl a
  refine ⟨(decode_encodeResponse ..).trans (congrArg _ hpdate), _, rfl, rfl, fun hm => ?_, fun hm => ?_⟩
  · rw [hm]; exact pdateWord_bitOr_toNat ..
  · rw [hm]; exact pdateWord_be32_toNat ..

/-- Settles O16, by the row's action under each policy; an accepted frame's is that of its tag's row. -/
theorem secondaryQueueStandardFrameFollowsThePolicy :
    Obligations.SecondaryQueueStandardFrameFollowsThePolicy := by
  intro id a s hl
  refine ⟨fun hp => ?_, fun hp hid => ?_, fun hp hid => ?_⟩
  · exact (exec_of_rowAction (rowAction_rxStdQ1_discard hp id a)).trans (congrArg _ (rxReturn_discard .discardType s))
  · have haction : rowAction s.cfg (.rxStdQ1 id a) = some .discardId :=
      (rowAction_rxStdQ1_decode hp id a).trans (congrArg some (if_neg hid))
    exact (exec_of_rowAction haction).trans (congrArg _ (rxReturn_discard .discardId s))
  · have haction : rowAction s.cfg (.rxStdQ1 id a) = some (payloadAction s.cfg a.data) :=
      (rowAction_rxStdQ1_decode hp id a).trans (congrArg some (if_pos hid))
    exact ⟨_, exec_of_rowAction haction, exec_of_rowAction (rowAction_decodeResponse hl a.data.d3 a.withoutTag)⟩

/-- Settles O17: the row of the frame a word presents has the action of its classification. -/
theorem opcodeRowsAgreeWithTheClassification : Obligations.OpcodeRowsAgreeWithTheClassification :=
  fun _ w _ hf hl hs hw hec => step_rx hf hl hs ((passesChecks_iff w).1 hw) hec

/-- Settles O18, by the action: an update leaves the counter, a discard leaves the readings, the rest leave both. -/
theorem outcomeSaysWhichRegistersAreWritten : Obligations.OutcomeSaysWhichRegistersAreWritten := by
  intro i s t hi h
  obtain ⟨x, -, e⟩ := exec_rx hi s
  rw [e] at h; cases h
  cases x with
  | cell | hv | pdate | soc => exact ⟨.update, rfl, (if_neg (by simp)).symm, fun h => absurd rfl h⟩
  | ignored => exact ⟨.ignoredTag, rfl, (if_neg (by simp)).symm, fun _ => ⟨rfl, rfl, rfl, rfl, rfl⟩⟩
  | placeholder => exact ⟨.placeholder, rfl, (if_neg (by simp)).symm, fun _ => ⟨rfl, rfl, rfl, rfl, rfl⟩⟩
  | discardId =>
    exact ⟨.discardId, rxReturn_discard_rxLog .., (rxReturn_discard_discardCtr ..).trans (if_congr (by simp) rfl rfl),
      fun _ => rxReturn_discard_frame ..⟩
  | discardType =>
    exact ⟨.discardType, rxReturn_discard_rxLog .., (rxReturn_discard_discardCtr ..).trans (if_congr (by simp) rfl rfl),
      fun _ => rxReturn_discard_frame ..⟩

/-- Settles O19: the frame of every action, and the one field it writes. -/
theorem receiveEventWritesAtMostOneValueField : Obligations.ReceiveEventWritesAtMostOneValueField := by
  intro i s t hi h
  obtain ⟨x, -, e⟩ := exec_rx hi s
  rw [e] at h; cases h
  refine ⟨rxReturn_result_frame x s, ?_⟩
  cases x with
  | cell k v => exact .inl ⟨k, v, rfl, rfl, rfl, rfl, rfl⟩
  | hv => exact .inr (.inl ⟨rfl, rfl, rfl, rfl⟩)
  | soc => exact .inr (.inr (.inl ⟨rfl, rfl, rfl, rfl⟩))
  | pdate => exact .inr (.inr (.inr (.inl ⟨rfl, rfl, rfl, rfl⟩)))
  | ignored | placeholder => exact .inr (.inr (.inr (.inr ⟨rfl, rfl, rfl, rfl, rfl⟩)))
  | discardId | discardType =>
    obtain ⟨hcell, hhv, hsoc, hpdate, hlastIdx⟩ := rxReturn_discard_frame _ s
    exact .inr (.inr (.inr (.inr ⟨hlastIdx, hcell, hhv, hsoc, hpdate⟩)))

/-- Settles O20: the words present frames with the same action. -/
theorem rtrDlcAndLeadingBytesAreNotRead : Obligations.RtrDlcAndLeadingBytesAreNotRead := by
  intro s v w rest hv hw hec hhead hid hdata
  have hecw : swEc w = 0x01 :=
    (extractLsb'_congr_of_le (start := 112) (len := 16) (start' := 8) hhead.symm (by omega)).trans hec
  refine step_congr_of_runWord (fun t hl => ?_) s rest
  rw [runWord_rx hl ((passesChecks_iff v).1 hv) hec, runWord_rx hl ((passesChecks_iff w).1 hw) hecw, demux_eq, demux_eq,
    frameAction_rxFrameOf_congr t.cfg hhead hid hdata]

/-- Settles O14: the two actions that write nothing. -/
theorem unrecognisedTagAndPlaceholderWriteNoRegister :
    Obligations.UnrecognisedTagAndPlaceholderWriteNoRegister :=
  fun _ _ _ _ _ => ⟨exec_of_rowAction (x := .ignored) rfl, exec_of_rowAction (x := .placeholder) rfl⟩

/-- Settles O15, by the two discards. -/
theorem discardedFramesOnlyCount : Obligations.DiscardedFramesOnlyCount := by
  intro id x a s
  rw [← rxReturn_discard, ← rxReturn_discard]
  exact ⟨exec_of_rowAction (x := .discardId) rfl, exec_of_rowAction (x := .discardType) rfl⟩

end Sys2Proof.Claims

/-! # Proofs: the request encoder, what TXLOG holds, and the block's own request looped back (42_request_encoder.md) -/

namespace Sys2Proof.Machine

open Sys2Proof.Claims

/-! ## The TX record as a number (30_encoding.md R83, R190) -/

/-- The low part of an appended word occupies its own width. -/
theorem toNat_append_add {m n : Nat} (x : BitVec m) (y : BitVec n) : (x ++ y).toNat = x.toNat * 2 ^ n + y.toNat := by
  rw [BitVec.toNat_append, ← Nat.shiftLeft_add_eq_or_of_lt y.isLt, Nat.shiftLeft_eq]

theorem payloadBits_toNat (d : Payload) :
    d.bits.toNat = d.d0.toNat * 2 ^ 56 + d.d1.toNat * 2 ^ 48 + d.d2.toNat * 2 ^ 40 + d.d3.toNat * 2 ^ 32 +
      d.d4.toNat * 2 ^ 24 + d.d5.toNat * 2 ^ 16 + d.d6.toNat * 2 ^ 8 + d.d7.toNat := by
  simp only [Payload.bits, toNat_append_add]
  omega

theorem mkSw_toNat (ec : Byte) (a b c dlc : BitVec 4) (r : Byte) (id : Word) (x : BitVec 64) :
    (mkSw ec a b c dlc r id x).toNat = ec.toNat * 2 ^ 120 + a.toNat * 2 ^ 116 + b.toNat * 2 ^ 112 + c.toNat * 2 ^ 108 +
      dlc.toNat * 2 ^ 104 + r.toNat * 2 ^ 96 + id.toNat * 2 ^ 64 + x.toNat := by
  simp only [mkSw, toNat_append_add]
  omega

/-- The parameter index stands in the record as `D[3]`, at bit 32, and nowhere else. -/
theorem txRecord_toNat (c : Config) (p : Byte) : (txRecord c p).toNat = (txRecord c 0).toNat + p.toNat * 2 ^ 32 := by
  have hzero : (0 : Byte).toNat = 0 := rfl
  simp only [txRecord, mkSw_toNat, payloadBits_toNat, hzero]
  omega

/-! ## What TXLOG holds (R193, R195) -/

theorem polledIndex_iff {c : Config} {p : Byte} :
    polledIndex c p = true ↔ p.toNat ≤ 9 ∨ p = c.tagPdate ∨ p = c.tagSoc := by
  simp [polledIndex, Config.knownTag, or_assoc]

/-- The PSM selects polled indices only (43_polling_fsm.md R214). -/
theorem polledIndex_of_select {c : Config} {cur : BitVec 4} {pdf pdf' : Bool} {p : Byte}
    (h : select c cur pdf = some (p, pdf')) : polledIndex c p = true := by
  rcases select_cases c cur pdf with ⟨h9, e⟩ | ⟨-, e⟩ | ⟨-, e⟩ <;> rw [e] at h <;> cases h
  · exact polledIndex_iff.2 (.inl (by rw [BitVec.toNat_ofNat]; omega))
  · cases pdf
    · exact polledIndex_iff.2 (.inr (.inl rfl))
    · exact polledIndex_iff.2 (.inr (.inr rfl))

/-- An event leaves TXLOG or appends one request for a polled index (R193, R195). -/
theorem exec_txLog_cases {i : Instr} {s t : State} (h : exec i s = .next t) :
    t.txLog = s.txLog ∨ ∃ p, polledIndex s.cfg p = true ∧ t.txLog = s.txLog ++ [encodeRequest s.cfg p] := by
  by_cases hi : i = .loop
  · subst hi; cases h
    rcases loop_cases s with ⟨-, p, e, -⟩ | ⟨-, -, e⟩ | ⟨-, -, p, pdf, hs, e⟩ <;> rw [e]
    · exact .inl rfl
    · exact .inl rfl
    · exact .inr ⟨p, polledIndex_of_select hs, rfl⟩
  · obtain ⟨-, -, -, htx, -⟩ := exec_sameSequencer h hi
    exact .inl htx

theorem exec_sentOnlyRequests {i : Instr} {s t : State} (hs : SentOnlyRequests s) (h : exec i s = .next t) :
    SentOnlyRequests t := by
  unfold SentOnlyRequests at hs ⊢
  rw [exec_cfg h]
  rcases exec_txLog_cases h with e | ⟨p, hp, e⟩ <;> rw [e]
  · exact hs
  · exact List.forall_mem_append.2 ⟨hs, List.forall_mem_singleton.2 ⟨p, hp, rfl⟩⟩

theorem exec_txLog_prefix {i : Instr} {s t : State} (h : exec i s = .next t) : s.txLog <+: t.txLog := by
  rcases exec_txLog_cases h with e | ⟨p, -, e⟩ <;> rw [e]
  exact List.prefix_append _ _

/-! ## The block's own request on the primary queue (R195, 41_receive_demux.md R166) -/

/-- A standard frame on the primary queue that is not from RESP_ID is discarded for its identifier. -/
theorem frameAction_primary_std_ne {c : Config} {id : StdId} (h : id ≠ c.respId) (rtr : Bool) (dlc : Fin 9)
    (d : Payload) : frameAction c ⟨.primary, ⟨.std id, rtr, dlc, d⟩⟩ = .discardId := if_neg h

/-- A step that takes the word of such a frame discards it (R166). -/
theorem step_rxWord_primary_std_ne {s : State} {id : StdId} {a : FrameArgs} {rest : List Sw} (hf : s.fault = .none)
    (hl : s.cfg.legal = true) (hs : s.stim = rxWord .primary (.std id) a :: rest) (hid : id ≠ s.cfg.respId) :
    step s = .next (rxReturn (discard .discardId (s.withStim rest))) := by
  have haction := frameAction_primary_std_ne (c := (s.withStim rest).cfg) hid a.rtr a.dlc a.data
  rw [step_rx hf hl hs (failedCheck_rxWord ..) (swEc_rxWord ..), rxFrameOf_rxWord, demux_eq, haction]; rfl

end Sys2Proof.Machine

namespace Sys2Proof.Claims

open Sys2Proof.Machine

/-- Settles O51: the log is extended by requests for polled indices, and the words and the mark are no part of it. -/
theorem everyFrameSentIsARequestForAPolledIndex : Obligations.EveryFrameSentIsARequestForAPolledIndex :=
  fun s _ hsent => step_keeps (P := fun u => SentOnlyRequests u ∧ s.txLog <+: u.txLog) (fun hu _ => hu) (fun hu => hu)
    (fun ⟨hu, hgrows⟩ h => ⟨exec_sentOnlyRequests hu h, hgrows.trans (exec_txLog_prefix h)⟩) ⟨hsent, List.prefix_rfl⟩

/-- Settles O22: REQ_ID is not RESP_ID in a legal configuration, so the request's frame is discarded for its identifier. -/
theorem loopedBackRequestIsDiscarded : Obligations.LoopedBackRequestIsDiscarded := by
  intro s p dlc rest hf hl hs
  obtain ⟨hne, -⟩ := s.cfg.legal_iff.1 hl
  have hword : s.stim = rxWord .primary (.std s.cfg.reqId) ⟨false, dlc, (encodeRequest s.cfg p).data⟩ :: rest := hs
  exact ⟨_, step_rxWord_primary_std_ne hf hl hword hne.symm, rxReturn_discard_rxLog .., rxReturn_discard_frame ..⟩

/-- Settles O36: the record is the word of TX_REQ, which holds the index at bit 32. -/
theorem requestFrameAndItsRecord : Obligations.RequestFrameAndItsRecord := by
  refine fun c p => ⟨rfl, frameRecord_encodeRequest c p, ?_⟩
  rw [frameRecord_encodeRequest, txRecord_toNat]; rfl

end Sys2Proof.Claims

/-! # Proofs: the polling state machine (43_polling_fsm.md R210 to R224) -/

namespace Sys2Proof.Machine

/-! ## What a REQUESTING pass sends (R213 to R217) -/

/-- The parameter index a cursor of at most 10 selects (R214). -/
def selectedIndex (c : Config) (cur : BitVec 4) (pdf : Bool) : Byte :=
  if cur.toNat ≤ 9 then BitVec.ofNat 8 cur.toNat else if pdf then c.tagSoc else c.tagPdate

theorem select_of_le {c : Config} {cur : BitVec 4} (h : cur.toNat ≤ 10) (pdf : Bool) :
    select c cur pdf = some (selectedIndex c cur pdf, pdf || decide (cur.toNat = 10)) := by
  rcases select_cases c cur pdf with ⟨h9, e⟩ | ⟨h10, e⟩ | ⟨hgt, -⟩
  · have hne : cur.toNat ≠ 10 := by omega
    simp [e, selectedIndex, h9, hne]
  · simp [e, selectedIndex, h10]
  · omega

/-- A request in full, for a cursor that selects a parameter. -/
theorem request_of_le {s : State} (h : s.cursor.toNat ≤ 10) :
    request s = { s with
      pdf := s.pdf || decide (s.cursor.toNat = 10)
      txLog := s.txLog ++ [encodeRequest s.cfg (selectedIndex s.cfg s.cursor s.pdf)]
      cursor := advance s.cursor
      slots := s.slots.set s.cfg.pollSlot (s.slots[s.cfg.pollSlot].rearm s.cfg.gPoll)
      redraw := true
      psm := .cooldown } :=
  request_of_select (select_of_le h s.pdf)

/-- What a request leaves in the registers the PSM owns. -/
structure Sent (s t : State) : Prop where
  txLog : t.txLog = s.txLog ++ [encodeRequest s.cfg (selectedIndex s.cfg s.cursor s.pdf)]
  pdf : t.pdf = (s.pdf || decide (s.cursor.toNat = 10))
  cursor : t.cursor.toNat = (s.cursor.toNat + 1) % 11
  redraw : t.redraw = true
  psm : t.psm = .cooldown
  fault : t.fault = s.fault
  cfg : t.cfg = s.cfg

theorem sent_request {s : State} (h : s.cursor.toNat ≤ 10) : Sent s (request s) := by
  rw [request_of_le h]
  exact ⟨rfl, rfl, advance_toNat h, rfl, rfl, rfl, rfl⟩

theorem psmStep_of_requesting {s : State} (h : s.psm = .requesting) : psmStep s = request s := by
  rw [psmStep, h]

/-- A LOOP pass in REQUESTING is the request after the samples, which the request does not read. -/
theorem sent_loop {s : State} (hr : s.psm = .requesting) (hc : s.cursor.toNat ≤ 10) :
    Sent s (psmStep (sampleBoth s)) := by
  have hpsm : (sampleBoth s).psm = .requesting := by rw [sampleBoth_eq]; exact hr
  have hcur : (sampleBoth s).cursor.toNat ≤ 10 := by rw [sampleBoth_eq]; exact hc
  have hs : Sent (sampleBoth s) (request (sampleBoth s)) := sent_request hcur
  rw [psmStep_of_requesting hpsm]
  rw [sampleBoth_eq] at hs ⊢
  exact { hs with }

/-! ## Rounds of eleven requests (R221) -/

theorem sent_requestingStep {s : State} (h : s.cursor.toNat ≤ 10) : Sent s (requestingStep s) := by
  rw [requestingStep, psmStep_of_requesting (State.writePsm_psm ..)]
  exact { sent_request (s := s.writePsm .requesting) h with }

/-- The first `k` requests of a round, from cursor 0: the indices 0 to k - 1, with PDF as before. -/
theorem requestingStep_iterate {s : State} (h : s.cursor = 0) {k : Nat} (hk : k ≤ 10) :
    (requestingStep^[k] s).txLog = s.txLog ++ ((List.range k).map (BitVec.ofNat 8)).map (encodeRequest s.cfg) ∧
      (requestingStep^[k] s).cursor.toNat = k ∧ (requestingStep^[k] s).pdf = s.pdf ∧
      (requestingStep^[k] s).cfg = s.cfg := by
  induction k with
  | zero => simp [h]
  | succ k ih =>
    obtain ⟨htx, hcur, hpdf, hcfg⟩ := ih (by omega)
    rw [Function.iterate_succ_apply']
    have hs : Sent (requestingStep^[k] s) _ := sent_requestingStep (by omega)
    have hidx : selectedIndex (requestingStep^[k] s).cfg (requestingStep^[k] s).cursor (requestingStep^[k] s).pdf
        = BitVec.ofNat 8 k := by
      rw [selectedIndex, hcur, if_pos (by omega)]
    have hne : k ≠ 10 := by omega
    refine ⟨?_, ?_, ?_, hs.cfg.trans hcfg⟩
    · rw [hs.txLog, hidx, htx, hcfg, List.range_succ]
      simp
    · rw [hs.cursor, hcur]; omega
    · simp [hs.pdf, hcur, hpdf, hne]

/-- A whole round, from cursor 0 to cursor 0: its last index is TAG_SOC if PDF was set, and TAG_PDATE if not. -/
theorem requestingStep_round {s : State} (h : s.cursor = 0) :
    (requestingStep^[11] s).txLog
        = s.txLog ++ ([0, 1, 2, 3, 4, 5, 6, 7, 8, 9, if s.pdf then s.cfg.tagSoc else s.cfg.tagPdate] : List Byte).map
          (encodeRequest s.cfg) ∧
      (requestingStep^[11] s).cursor = 0 ∧ (requestingStep^[11] s).pdf = true ∧
      (requestingStep^[11] s).cfg = s.cfg := by
  obtain ⟨htx, hcur, hpdf, hcfg⟩ := requestingStep_iterate h (Nat.le_refl 10)
  rw [Function.iterate_succ_apply']
  have hs : Sent (requestingStep^[10] s) _ := sent_requestingStep (by omega)
  have hidx : selectedIndex (requestingStep^[10] s).cfg (requestingStep^[10] s).cursor (requestingStep^[10] s).pdf
      = if s.pdf then s.cfg.tagSoc else s.cfg.tagPdate := by
    rw [selectedIndex, hcur, if_neg (by omega), hpdf, hcfg]
  have hfirst : (List.range 10).map (BitVec.ofNat 8) = [0, 1, 2, 3, 4, 5, 6, 7, 8, 9] := by decide
  refine ⟨?_, BitVec.eq_of_toNat_eq (by rw [hs.cursor, hcur]; rfl), ?_, hs.cfg.trans hcfg⟩
  · rw [hs.txLog, hidx, htx, hcfg, hfirst, List.append_assoc]; rfl
  · rw [hs.pdf, hcur]; exact Bool.or_true _

end Sys2Proof.Machine

namespace Sys2Proof.Claims

open Sys2Proof.Machine

/-- Settles O31, by the case of a LOOP pass outside REQUESTING. -/
theorem loopTakesOneTransition : Obligations.LoopTakesOneTransition := by
  intro s hr
  refine ⟨_, exec_loop s, ?_⟩
  rw [loop_slot s _ fun _ => hr]
  rcases loop_cases s with ⟨-, p, e, hidle, hcooldown, harmed⟩ | ⟨h, -⟩ | ⟨h, -⟩
  · rw [e]
    refine ⟨hidle, fun h => (harmed h).trans ?_, hcooldown, rfl, rfl, rfl, rfl, rfl⟩
    simp only [TimerSlot.reached, decide_eq_true_iff]
  · exact absurd h hr
  · exact absurd h hr

/-- Settles O32: the request of the pass, and its re-armed slot. -/
theorem requestingPassSendsOneRequest : Obligations.RequestingPassSendsOneRequest := by
  intro s hr hc
  have hs : Sent s (psmStep (sampleBoth s)) := sent_loop hr hc
  refine ⟨_, exec_loop s, hs.txLog, ?_, hs.cursor, hs.redraw, hs.psm, hs.fault, loop_slot_rearmed hr hc⟩
  rw [hs.pdf, Bool.or_eq_true, decide_eq_true_iff]

/-- Settles O33: the cursor selects nothing, so the samples and the mark are all the pass does. -/
theorem cursorAboveTenOnlyMarksTheFault : Obligations.CursorAboveTenOnlyMarksTheFault := by
  intro s hr hc
  have hfault : exec .loop s = .next { sampleBoth s with fault := .cursorOutOfRange } := by
    rcases loop_cases s with ⟨h, -⟩ | ⟨-, -, e⟩ | ⟨-, h, -⟩
    · exact absurd hr h
    · rw [exec_loop, e, sampleBoth_eq]
    · omega
  refine ⟨hfault, fun hms hds => ?_⟩
  have hcalm : ∀ g, edgePending g s = false := by
    intro g
    cases g <;> simp [edgePending, toggleFlag, sampledLevel, hms, hds]
  rw [hfault, sampleBoth_of_no_edge hcalm]

/-- Settles O37: two rounds, the second from the PDF the first has set. -/
theorem elevenRequestsGoRoundOnce : Obligations.ElevenRequestsGoRoundOnce := by
  intro s hc hp
  obtain ⟨htx, hcur, hpdf, hcfg⟩ := requestingStep_round hc
  obtain ⟨htx', hcur', hpdf', -⟩ := requestingStep_round hcur
  obtain ⟨-, -, hten, -⟩ := requestingStep_iterate hc (Nat.le_refl 10)
  rw [← Function.iterate_add_apply] at htx' hcur' hpdf'
  rw [hp] at htx hten
  rw [hpdf, hcfg] at htx'
  exact ⟨htx, hcur, hpdf, hten, htx', hcur', hpdf'⟩

/-- Settles O34: the word is the model's ACK word, and the row is the one write of REDRAW. -/
theorem ackClearsRedraw : Obligations.AckClearsRedraw := by
  intro s
  have hword : (0x05000000000000000000000000000000 : Sw) = ackWord := by decide
  exact ⟨hword ▸ decode_ackWord s.cfg, exec_ack s⟩

end Sys2Proof.Claims

/-! # Proofs: how long the polling state machine takes (43_polling_fsm.md R222, R224) -/

namespace Sys2Proof.Machine

/-! ## One LOOP pass seen from the poll slot -/

/-- Both levels have been sampled, so a pass leaves no edge pending (40_timer_service.md R123). -/
theorem edgePending_loop (g : Gran) (s : State) : edgePending g (psmStep (sampleBoth s)) = false := by
  obtain ⟨hlMs, hlDs⟩ := loop_levels s
  obtain ⟨-, htMs, htDs, -, -⟩ := loop_frame s
  cases g <;> simp [edgePending, toggleFlag, sampledLevel, hlMs, hlDs, htMs, htDs]

/-- A pass counts at most the one edge that is pending. -/
theorem sampledSlot_cnt_le_add_edge (s : State) (j : Fin nSlots) :
    (sampledSlot s j).cnt.toNat ≤ s.slots[j].cnt.toNat + (edgePending s.slots[j].gran s).toNat := by
  obtain ⟨counted, kept⟩ := sampledSlot_spec s j
  by_cases hc : j.val < s.cfg.numSlots.val ∧ s.slots[j].run = true ∧ edgePending s.slots[j].gran s = true
  · rw [(counted hc).1, hc.2.2]
    exact min_le_left _ _
  · rw [kept hc]
    exact Nat.le_add_right _ _

/-- A running slot below CEIL counts exactly that edge. -/
theorem sampledSlot_cnt_eq_add_edge {s : State} {j : Fin nSlots} (hj : j.val < s.cfg.numSlots.val)
    (hrun : s.slots[j].run = true) (hlt : s.slots[j].cnt.toNat < s.cfg.ceil.toNat) :
    (sampledSlot s j).cnt.toNat = s.slots[j].cnt.toNat + (edgePending s.slots[j].gran s).toNat := by
  obtain ⟨counted, kept⟩ := sampledSlot_spec s j
  cases he : edgePending s.slots[j].gran s with
  | true => rw [(counted ⟨hj, hrun, he⟩).1, Bool.toNat_true, min_eq_left hlt]
  | false => rw [kept fun ⟨_, _, h⟩ => Bool.false_ne_true (he.symm.trans h)]; rfl

/-- The state after one transition, by whether the gate is open (R211 to R213, R218). -/
def nextPsm (gate : Bool) : Psm → Psm
  | .idle => .armed
  | .armed => if gate then .requesting else .armed
  | .requesting => .cooldown
  | .cooldown => .idle

/-- A pass outside REQUESTING moves the PSM and none of the registers a request writes. -/
theorem loop_outside_request {s : State} (hr : s.psm ≠ .requesting) :
    (psmStep (sampleBoth s)).psm = nextPsm (sampledSlot s s.cfg.pollSlot).reached s.psm ∧
      (psmStep (sampleBoth s)).cursor = s.cursor ∧ (psmStep (sampleBoth s)).pdf = s.pdf ∧
      (psmStep (sampleBoth s)).txLog = s.txLog ∧ (psmStep (sampleBoth s)).fault = s.fault := by
  rcases loop_cases s with ⟨-, p, e, hidle, hcooldown, harmed⟩ | ⟨h, -⟩ | ⟨h, -⟩
  · rw [e]
    refine ⟨?_, rfl, rfl, rfl, rfl⟩
    cases hp : s.psm with
    | idle => exact hidle hp
    | armed => exact harmed hp
    | requesting => exact absurd hp hr
    | cooldown => exact hcooldown hp
  · exact absurd h hr
  · exact absurd h hr

theorem exec_tickRow (g : Gran) (s : State) : exec (tickRow g) s = .next (invertToggle g s) := by
  cases g <;> rfl

theorem encode_tickRow (c : Config) (g : Gran) : encode c (tickRow g) = tickWord g := by
  cases g <;> rfl

theorem edgePending_invertToggle (g : Gran) (s : State) :
    edgePending g (invertToggle g s) = !edgePending g s := by
  cases g <;> exact Bool.not_bne ..

/-! ## CYCLE (R222) -/

/-- Between two requests: the registers a request writes are those of `s₀`, and the PSM is in `p`, with `n` ticks in the
running poll slot and an edge of G_POLL pending or not. -/
structure Polling (s₀ : State) (p : Psm) (n : Nat) (edge : Bool) (s : State) : Prop where
  fault : s.fault = .none
  cfg : s.cfg = s₀.cfg
  cursor : s.cursor = s₀.cursor
  pdf : s.pdf = s₀.pdf
  txLog : s.txLog = s₀.txLog
  psm : s.psm = p
  cnt : s.slots[s₀.cfg.pollSlot].cnt.toNat = n
  run : s.slots[s₀.cfg.pollSlot].run = true
  gran : s.slots[s₀.cfg.pollSlot].gran = s₀.cfg.gPoll
  period : s.slots[s₀.cfg.pollSlot].period = s₀.cfg.pPoll
  edge : edgePending s₀.cfg.gPoll s = edge

section Cycle

variable {s₀ s : State} {p : Psm} {n : Nat} {edge : Bool} {rest : List Sw}

/-- A tick of G_POLL in a wait turns the pending edge round and nothing else (R120, R121). -/
theorem polling_invertToggle (h : Polling s₀ p n edge s) :
    Polling s₀ p n (!edge) (invertToggle s₀.cfg.gPoll s) := by
  have hexec := exec_tickRow s₀.cfg.gPoll s
  have hnoLoop : tickRow s₀.cfg.gPoll ≠ .loop := by cases s₀.cfg.gPoll <;> decide
  have hnoTreset : (tickRow s₀.cfg.gPoll).eventClass ≠ .treset := by cases s₀.cfg.gPoll <;> decide
  obtain ⟨hcursor, hpdf, hpsm, htxLog, -⟩ := exec_sameSequencer hexec hnoLoop
  have hslots := exec_slots hexec hnoLoop hnoTreset
  exact
    { fault := (invertToggle_fault ..).trans h.fault
      cfg := (invertToggle_cfg ..).trans h.cfg
      cursor := hcursor.trans h.cursor
      pdf := hpdf.trans h.pdf
      txLog := htxLog.trans h.txLog
      psm := hpsm.trans h.psm
      cnt := by rw [hslots, h.cnt]
      run := by rw [hslots, h.run]
      gran := by rw [hslots, h.gran]
      period := by rw [hslots, h.period]
      edge := by rw [edgePending_invertToggle, h.edge] }

/-- A pass in a wait counts the pending edge and makes the transition the new count allows (R210 to R212, R218). -/
theorem polling_loop (hl : s₀.cfg.legal = true) (h : Polling s₀ p n edge s) (hp : p ≠ .requesting)
    (hn : n < s₀.cfg.ceil.toNat) :
    Polling s₀ (nextPsm (decide (s₀.cfg.pPoll.toNat ≤ n + edge.toNat)) p) (n + edge.toNat) false
      (psmStep (sampleBoth s)) := by
  have hr : s.psm ≠ .requesting := h.psm ▸ hp
  obtain ⟨hpsm, hcursor, hpdf, htxLog, hfault⟩ := loop_outside_request hr
  obtain ⟨-, -, -, hcfg, -⟩ := loop_frame s
  have hslot := loop_slot s s₀.cfg.pollSlot fun _ => hr
  have hcnt : (sampledSlot s s₀.cfg.pollSlot).cnt.toNat = n + edge.toNat := by
    rw [sampledSlot_cnt_eq_add_edge (by rw [h.cfg]; exact Config.pollSlot_lt hl) h.run
      (by rw [h.cnt, h.cfg]; exact hn), h.cnt, h.gran, h.edge]
  have hperiod : (sampledSlot s s₀.cfg.pollSlot).period = s₀.cfg.pPoll := (sampledSlot_period ..).trans h.period
  exact
    { fault := hfault.trans h.fault
      cfg := hcfg.trans h.cfg
      cursor := hcursor.trans h.cursor
      pdf := hpdf.trans h.pdf
      txLog := htxLog.trans h.txLog
      psm := by rw [hpsm, h.psm, h.cfg, TimerSlot.reached, hcnt, hperiod]
      cnt := by rw [hslot, hcnt]
      run := by rw [hslot, sampledSlot_run, h.run]
      gran := by rw [hslot, sampledSlot_gran, h.gran]
      period := by rw [hslot, hperiod]
      edge := edgePending_loop .. }

/-- The pass that ends a wait: it sends the request of `s₀`, and the state it leaves starts the next wait. -/
theorem polling_request (hf : s₀.fault = .none) (hc : s₀.cursor.toNat ≤ 10) (h : Polling s₀ .requesting n edge s) :
    Sent s₀ (psmStep (sampleBoth s)) ∧
      Polling (psmStep (sampleBoth s)) .cooldown 0 false (psmStep (sampleBoth s)) := by
  have hcur : s.cursor.toNat ≤ 10 := by rw [h.cursor]; exact hc
  have hsent : Sent s (psmStep (sampleBoth s)) := sent_loop h.psm hcur
  have hslot : (psmStep (sampleBoth s)).slots[(psmStep (sampleBoth s)).cfg.pollSlot]
      = ⟨0, false, true, (psmStep (sampleBoth s)).cfg.gPoll, (psmStep (sampleBoth s)).cfg.pPoll⟩ := by
    simp only [hsent.cfg, loop_slot_rearmed h.psm hcur]
    simp only [h.cfg, h.period]
  constructor
  · obtain ⟨htxLog, hpdf, hcursor, hredraw, hpsm, hfault, hcfg⟩ := hsent
    rw [h.txLog, h.cfg, h.cursor, h.pdf] at htxLog
    rw [h.cursor, h.pdf] at hpdf
    rw [h.cursor] at hcursor
    exact ⟨htxLog, hpdf, hcursor, hredraw, hpsm, hfault.trans (h.fault.trans hf.symm), hcfg.trans h.cfg⟩
  · exact
      { fault := hsent.fault.trans h.fault
        cfg := rfl
        cursor := rfl
        pdf := rfl
        txLog := rfl
        psm := hsent.psm
        cnt := by rw [hslot]; rfl
        run := by rw [hslot]
        gran := by rw [hslot]
        period := by rw [hslot]
        edge := edgePending_loop .. }

theorem step_polling_tick (hl : s₀.cfg.legal = true) (h : Polling s₀ p n edge s)
    (hs : s.stim = tickWord s₀.cfg.gPoll :: rest) :
    ∃ t, step s = .next t ∧ t.stim = rest ∧ Polling s₀ p n (!edge) t :=
  ⟨_, step_tickWord h.fault (h.cfg ▸ hl) hs, invertToggle_stim .., polling_invertToggle { h with }⟩

theorem step_polling_loop (hl : s₀.cfg.legal = true) (h : Polling s₀ p n edge s) (hp : p ≠ .requesting)
    (hn : n < s₀.cfg.ceil.toNat) (hs : s.stim = loopWord :: rest) :
    ∃ t, step s = .next t ∧ t.stim = rest ∧
      Polling s₀ (nextPsm (decide (s₀.cfg.pPoll.toNat ≤ n + edge.toNat)) p) (n + edge.toNat) false t := by
  obtain ⟨-, -, -, -, hstim⟩ := loop_frame (s.withStim rest)
  exact ⟨_, step_loopWord h.fault (h.cfg ▸ hl) hs, hstim, polling_loop hl { h with } hp hn⟩

/-- Fewer STEPs than the period: each counts one tick and the PSM stays ARMED. -/
theorem runSteps_polling_steps (hl : s₀.cfg.legal = true) {k : Nat} (h : Polling s₀ .armed n false s)
    (hk : n + k < s₀.cfg.pPoll.toNat) (hs : s.stim = assembleAll (stepsLines s₀.cfg.gPoll k) ++ rest) :
    ∃ t, runSteps (2 * k) s = .next t ∧ t.stim = rest ∧ Polling s₀ .armed (n + k) false t := by
  obtain ⟨-, -, -, -, -, hceil, -⟩ := s₀.cfg.legal_iff.1 hl
  induction k generalizing s n with
  | zero => exact ⟨s, rfl, hs, h⟩
  | succ k ih =>
    obtain ⟨u, hu, hustim, hpu⟩ := step_polling_tick hl h hs
    obtain ⟨v, hv, hvstim, hpv⟩ := step_polling_loop hl hpu (by decide) (by omega) hustim
    rw [Bool.not_false, Bool.toNat_true, decide_eq_false (by omega)] at hpv
    obtain ⟨t, ht, htstim, hpt⟩ := ih hpv (by omega) hvstim
    refine ⟨t, ?_, htstim, ?_⟩
    · rw [Nat.mul_succ, runSteps_succ hu, runSteps_succ hv, ht]
    · rwa [Nat.add_right_comm, Nat.add_assoc] at hpt

theorem step_polling_request (hl : s₀.cfg.legal = true) (hf : s₀.fault = .none) (hc : s₀.cursor.toNat ≤ 10)
    (h : Polling s₀ .requesting n edge s) (hs : s.stim = loopWord :: rest) :
    ∃ t, step s = .next t ∧ t.stim = rest ∧ Sent s₀ t ∧ Polling t .cooldown 0 false t := by
  obtain ⟨-, -, -, -, hstim⟩ := loop_frame (s.withStim rest)
  exact ⟨_, step_loopWord h.fault (h.cfg ▸ hl) hs, hstim, polling_request hf hc { h with }⟩

end Cycle

/-- STEPS of one more STEP ends with that STEP. -/
theorem stepsLines_succ_last (g : Gran) (n : Nat) : stepsLines g (n + 1) = stepsLines g n ++ stepLines g := by
  induction n with
  | zero => rfl
  | succ n ih => exact (congrArg (stepLines g ++ ·) ih).trans (List.append_assoc ..).symm

/-- The words of CYCLE, with its last STEP written out. -/
theorem assembleAll_cycleLines {c : Config} {k : Nat} (h : c.pPoll.toNat = k + 1) :
    assembleAll (cycleLines c)
      = loopWord :: (assembleAll (stepsLines c.gPoll k) ++ [tickWord c.gPoll, loopWord, loopWord, loopWord]) := by
  simp [assembleAll, cycleLines, h, stepsLines_succ_last, stepLines, loopWord, tickWord]

/-! ## The next request (R224) -/

/-- The LOOP passes since a request that a PSM state stands for at the least (R211, R212, R218). -/
def Psm.passesSinceRequest : Psm → Nat
  | .cooldown => 0
  | .idle => 1
  | .armed => 2
  | .requesting => 3

theorem passesSinceRequest_nextPsm_le {p : Psm} (hp : p ≠ .requesting) (gate : Bool) :
    (nextPsm gate p).passesSinceRequest ≤ p.passesSinceRequest + 1 := by
  cases p with
  | requesting => exact absurd rfl hp
  | idle | cooldown => exact Nat.le_refl _
  | armed => cases gate <;> decide

theorem gate_of_nextPsm_eq_requesting {gate : Bool} {p : Psm} (h : nextPsm gate p = .requesting) : gate = true := by
  cases p with
  | armed =>
    cases gate with
    | true => rfl
    | false => cases h
  | idle | requesting | cooldown => cases h

/-- After `l` LOOP passes and `k` edges of G_POLL since a request, no request yet: the poll slot holds at most `l` ticks,
those and the pending edge are at most `k`, and the PSM has come no further than `l` passes and the gate let it. -/
structure AwaitingRequest (c : Config) (l k : Nat) (s : State) : Prop where
  cfg : s.cfg = c
  gran : s.slots[c.pollSlot].gran = c.gPoll
  period : s.slots[c.pollSlot].period = c.pPoll
  cnt_le_passes : s.slots[c.pollSlot].cnt.toNat ≤ l
  cnt_le_edges : s.slots[c.pollSlot].cnt.toNat + (edgePending c.gPoll s).toNat ≤ k
  passes_le : s.psm.passesSinceRequest ≤ l
  gate : s.psm = .requesting → c.pPoll.toNat ≤ l ∧ c.pPoll.toNat ≤ k

/-- `l` LOOP passes and `k` edges of G_POLL are enough for the next request (R224). -/
def WholePeriod (c : Config) (l k : Nat) : Prop := 4 ≤ l ∧ c.pPoll.toNat + 1 ≤ l ∧ c.pPoll.toNat ≤ k

section NextRequest

variable {c : Config} {l k l' k' : Nat} {s t : State}

theorem AwaitingRequest.mono (h : AwaitingRequest c l k s) (hl : l ≤ l') (hk : k ≤ k') : AwaitingRequest c l' k' s :=
  { h with
    cnt_le_passes := h.cnt_le_passes.trans hl
    cnt_le_edges := h.cnt_le_edges.trans hk
    passes_le := h.passes_le.trans hl
    gate := fun hr => ⟨(h.gate hr).1.trans hl, (h.gate hr).2.trans hk⟩ }

theorem WholePeriod.mono (h : WholePeriod c l k) (hl : l ≤ l') (hk : k ≤ k') : WholePeriod c l' k' := by
  obtain ⟨h4, hp, ht⟩ := h
  exact ⟨h4.trans hl, hp.trans hl, ht.trans hk⟩

/-- A LOOP pass counts at most the pending edge and makes one transition; if it sends, the period is over. -/
theorem awaitingRequest_loop (h : AwaitingRequest c l k s) :
    (psmStep (sampleBoth s)).txLog = s.txLog ∧ AwaitingRequest c (l + 1) k (psmStep (sampleBoth s)) ∨
      WholePeriod c (l + 1) k := by
  obtain ⟨-, -, -, hcfg, -⟩ := loop_frame s
  by_cases hr : s.psm = .requesting
  · obtain ⟨hpl, hpk⟩ := h.gate hr
    have hthree : 3 ≤ l := (congrArg Psm.passesSinceRequest hr).symm.trans_le h.passes_le
    exact .inr ⟨by omega, by omega, hpk⟩
  obtain ⟨hpsm, -, -, htxLog, -⟩ := loop_outside_request hr
  have hslot := loop_slot s c.pollSlot fun _ => hr
  have hcnt := sampledSlot_cnt_le_add_edge s c.pollSlot
  rw [h.gran] at hcnt
  have hperiod : (sampledSlot s c.pollSlot).period = c.pPoll := (sampledSlot_period ..).trans h.period
  have hpasses := h.cnt_le_passes
  have hedges := h.cnt_le_edges
  have hone := Bool.toNat_le (edgePending c.gPoll s)
  refine .inl ⟨htxLog, hcfg.trans h.cfg, ?_, ?_, ?_, ?_, ?_, fun hreq => ?_⟩
  · rw [hslot, sampledSlot_gran, h.gran]
  · rw [hslot, hperiod]
  · rw [hslot]; omega
  · rw [hslot, edgePending_loop]; exact hcnt.trans hedges
  · rw [hpsm]
    exact (passesSinceRequest_nextPsm_le hr _).trans (Nat.succ_le_succ h.passes_le)
  · rw [hpsm, h.cfg] at hreq
    have hreached : c.pPoll.toNat ≤ (sampledSlot s c.pollSlot).cnt.toNat := by
      rw [← hperiod]; exact of_decide_eq_true (gate_of_nextPsm_eq_requesting hreq)
    omega

/-- Outside LOOP only a tick of G_POLL can leave a pending edge that was not there. -/
theorem edgePending_exec_le {i : Instr} (h : exec i s = .next t) (hi : i ≠ .loop) (g : Gran) :
    (edgePending g t).toNat ≤ (edgePending g s).toNat + if i = tickRow g then 1 else 0 := by
  cases effect_of_exec h with
  | @rx _ x =>
    obtain ⟨⟨-, -, -, -, hlMs, hlDs⟩, -, htMs, htDs, -⟩ := rxReturn_result_frame x s
    cases g <;> simp [edgePending, toggleFlag, sampledLevel, hlMs, hlDs, htMs, htDs]
  | tickMs =>
    cases g with
    | ms => exact (Bool.toNat_le _).trans (Nat.le_add_left 1 _)
    | ds => exact Nat.le_add_right _ _
  | tickDs =>
    cases g with
    | ms => exact Nat.le_add_right _ _
    | ds => exact (Bool.toNat_le _).trans (Nat.le_add_left 1 _)
  | loop => exact absurd rfl hi
  | treset | ack | txReq => cases g <;> exact Nat.le_add_right _ _

/-- Any event but LOOP and TRESET leaves the wait as it is, a tick of G_POLL with one more edge. -/
theorem awaitingRequest_exec {i : Instr} (h : exec i s = .next t) (ha : AwaitingRequest c l k s) (hi : i ≠ .loop)
    (ht : i.eventClass ≠ .treset) :
    t.txLog = s.txLog ∧ AwaitingRequest c l (k + if i = tickRow c.gPoll then 1 else 0) t := by
  obtain ⟨-, -, hpsm, htxLog, -⟩ := exec_sameSequencer h hi
  have hslots := exec_slots h hi ht
  have hedge := edgePending_exec_le h hi c.gPoll
  have hedges := ha.cnt_le_edges
  refine ⟨htxLog, (exec_cfg h).trans ha.cfg, ?_, ?_, ?_, ?_, ?_, ?_⟩
  · rw [hslots, ha.gran]
  · rw [hslots, ha.period]
  · rw [hslots]; exact ha.cnt_le_passes
  · rw [hslots]; omega
  · rw [hpsm]; exact ha.passes_le
  · rw [hpsm]; exact fun hr => ⟨(ha.gate hr).1, (ha.gate hr).2.trans (Nat.le_add_right _ _)⟩

/-- One step of the wait, in terms of the word it takes. -/
theorem awaitingRequest_step {w : Sw} {ws : List Sw} (h : step s = .next t) (ha : AwaitingRequest c l k s)
    (hs : s.stim = w :: ws) (hw : swEc w ≠ EventClass.treset.code) :
    t.stim = ws ∧
      (t.txLog = s.txLog ∧ AwaitingRequest c (l + [w].count loopWord) (k + [w].count (tickWord c.gPoll)) t ∨
        WholePeriod c (l + [w].count loopWord) (k + [w].count (tickWord c.gPoll))) := by
  obtain ⟨hf, hl, -⟩ := step_next h
  rw [step_of_word hf hl hs] at h
  have ha' : AwaitingRequest c l k (s.withStim ws) := { ha with }
  rcases runWord_cases w (s.withStim ws) with ⟨i, hd, e⟩ | ⟨r, -, e⟩ <;> rw [e] at h
  · refine ⟨exec_stim h, ?_⟩
    obtain ⟨hword, -⟩ := encode_of_decode hd
    by_cases hi : i = .loop
    · subst hi
      have hone : [w].count loopWord = 1 := by rw [← hword]; exact List.count_singleton_self
      cases h
      rw [hone]
      exact (awaitingRequest_loop ha').imp (fun ⟨htx, hn⟩ => ⟨htx, hn.mono (Nat.le_refl _) (Nat.le_add_right _ _)⟩)
        fun hn => hn.mono (Nat.le_refl _) (Nat.le_add_right _ _)
    · have ht : i.eventClass ≠ .treset := fun e => hw (by rw [decode_class hd, e])
      obtain ⟨htx, hn⟩ := awaitingRequest_exec h ha' hi ht
      refine .inl ⟨htx, hn.mono (Nat.le_add_right _ _) (Nat.add_le_add_left ?_ k)⟩
      split
      · next htick =>
        rw [← hword, htick, encode_tickRow]
        exact List.count_singleton_self.ge
      · exact Nat.zero_le _
  · cases h
    refine ⟨rfl, .inl ⟨rfl, ?_⟩⟩
    have hrefused : AwaitingRequest c l k ((s.withStim ws).markFault .refusedStimulus) := { ha with }
    exact hrefused.mono (Nat.le_add_right _ _) (Nat.le_add_right _ _)

/-- A run of words that sends a request has spent the period. -/
theorem runSteps_awaitingRequest {ws rest : List Sw} (ha : AwaitingRequest c l k s) (hs : s.stim = ws ++ rest)
    (hws : ∀ w ∈ ws, swEc w ≠ EventClass.treset.code) (hrun : runSteps ws.length s = .next t) :
    t.txLog = s.txLog ∨ WholePeriod c (l + ws.count loopWord) (k + ws.count (tickWord c.gPoll)) := by
  induction ws generalizing s l k with
  | nil => cases hrun; exact .inl rfl
  | cons w ws ih =>
    obtain ⟨hw, hrest⟩ := List.forall_mem_cons.1 hws
    obtain ⟨u, hstep, hrun'⟩ := runSteps_succ_next hrun
    rw [← List.singleton_append, List.count_append, List.count_append, ← Nat.add_assoc, ← Nat.add_assoc]
    obtain ⟨hstim, ⟨htx, hu⟩ | hperiod⟩ := awaitingRequest_step hstep ha hs hw
    · exact (ih hu hstim hrest hrun').imp_left fun e => e.trans htx
    · exact .inr (hperiod.mono (Nat.le_add_right _ _) (Nat.le_add_right _ _))

end NextRequest

end Sys2Proof.Machine

namespace Sys2Proof.Claims

open Sys2Proof.Machine

/-- Settles O38: the first LOOP arms, all STEPs but the last count below the period, and the last STEP opens the gate. -/
theorem cycleSendsExactlyOneRequest : Obligations.CycleSendsExactlyOneRequest := by
  intro s rest hf hl hc hpsm hcnt hrun hgran hperiod hlevel hs
  obtain ⟨-, -, -, -, hpos, hceil, -⟩ := s.cfg.legal_iff.1 hl
  obtain ⟨k, hk⟩ : ∃ k, s.cfg.pPoll.toNat = k + 1 := ⟨_, (Nat.sub_add_cancel hpos).symm⟩
  have hstart : Polling s .idle 0 false s :=
    ⟨hf, rfl, rfl, rfl, rfl, hpsm, by rw [hcnt]; rfl, hrun, hgran, hperiod, by simp [edgePending, hlevel]⟩
  rw [assembleAll_cycleLines hk, List.cons_append, List.append_assoc] at hs
  obtain ⟨a, ha, hastim, hpa⟩ := step_polling_loop hl hstart (by decide) (by omega) hs
  obtain ⟨b, hb, hbstim, hpb⟩ := runSteps_polling_steps hl hpa (by simp; omega) hastim
  obtain ⟨r, hr, hrstim, hpr⟩ := step_polling_tick hl hpb hbstim
  obtain ⟨u, hu, hustim, hpu⟩ := step_polling_loop hl hpr (by decide) (by simp; omega) hrstim
  have hgate : s.cfg.pPoll.toNat ≤ 0 + false.toNat + k + (!false).toNat := by simp; omega
  rw [decide_eq_true hgate] at hpu
  obtain ⟨v, hv, hvstim, hsent, hpv⟩ := step_polling_request hl hf hc hpu hustim
  obtain ⟨t, ht, htstim, hpt⟩ := step_polling_loop (hsent.cfg ▸ hl) hpv (by decide) (by rw [hsent.cfg]; omega) hvstim
  have htcfg : t.cfg = s.cfg := hpt.cfg.trans hsent.cfg
  have hsteps : runSteps (2 * s.cfg.pPoll.toNat) s = .next r := by
    rw [hk, Nat.mul_succ, runSteps_succ ha, runSteps_add hb, runSteps_succ hr, runSteps_zero]
  obtain ⟨htfault, -, htcursor, -, httxLog, htpsm, htcnt, htrun, htgran, htperiod, htedge⟩ := hpt
  simp only [hsent.cfg] at htcnt htrun htgran htperiod htedge
  exact ⟨r, u, v, t, hsteps, hpr.psm, hpr.txLog, hu, hpu.psm, hpu.txLog, hv, hsent.psm, hsent.txLog, ht, htstim, htpsm,
    httxLog, htfault, htcfg, by rw [htcursor]; exact hsent.cursor, BitVec.eq_of_toNat_eq htcnt, htrun, htgran, htperiod,
    bne_eq_false_iff_eq.1 htedge⟩

/-- Settles O39: a run of the wait that sends a request has spent the period, counted from the state a request leaves. -/
theorem nextRequestNeedsTheWholePeriod : Obligations.NextRequestNeedsTheWholePeriod := by
  intro s t ws rest hf hl hpsm hcnt hgran hperiod hs hws hrun hsent
  have hstart : AwaitingRequest s.cfg 0 (edgePending s.cfg.gPoll s).toNat s :=
    ⟨rfl, hgran, hperiod, by rw [hcnt]; exact Nat.le_refl 0, by rw [hcnt]; exact (Nat.zero_add _).le,
      by rw [hpsm]; exact Nat.le_refl 0, fun h => absurd (hpsm.symm.trans h) (by decide)⟩
  obtain ⟨hfour, hpasses, hedges⟩ := (runSteps_awaitingRequest hstart hs hws hrun).resolve_left hsent
  have hpending : (edgePending s.cfg.gPoll s).toNat
      = if toggleFlag s.cfg.gPoll s = sampledLevel s.cfg.gPoll s then 0 else 1 := by
    split <;> simp_all [edgePending]
  rw [Nat.zero_add] at hfour hpasses
  exact ⟨hfour, hpasses, by omega⟩

end Sys2Proof.Claims

/-! # Proofs: every admitted event completes, and the acceptance filter (60_exceptions.md R240, R241, R254) -/

namespace Sys2Proof.Machine

/-! ## An input event sets no FAULT mark (R240) -/

/-- The TX record, which is no input, is refused; a cursor the invariants allow selects a parameter. -/
theorem exec_fault_of_input {i : Instr} {s t : State} (h : exec i s = .next t) (hi : i.isInput = true)
    (hc : s.cursor.toNat ≤ 10) : t.fault = s.fault := by
  cases effect_of_exec h with
  | @rx _ x => obtain ⟨-, -, -, -, -, hfault, -⟩ := rxReturn_result_frame x s; exact hfault
  | loop =>
    rcases loop_cases s with ⟨-, p, e, -⟩ | ⟨-, hgt, -⟩ | ⟨-, -, p, pdf, -, e⟩
    · rw [e]
    · exact absurd hc (not_le.2 hgt)
    · rw [e]
  | txReq => simp [Instr.isInput, Instr.eventClass] at hi
  | tickMs | tickDs | treset | ack => rfl

/-! ## No event reads the acceptance filter (R254) -/

section Filter
variable (q : Queue) (ide rtr : Bool) (s : State)

/-- The actions of the RX rows follow other parameters. -/
theorem rowAction_withFilter (i : Instr) : rowAction (s.withFilter q ide rtr).cfg i = rowAction s.cfg i := rfl

theorem rxReturn_result_withFilter (x : RxAction) :
    rxReturn (x.result (s.withFilter q ide rtr)) = (rxReturn (x.result s)).withFilter q ide rtr := by
  cases x with
  | discardId | discardType => simp only [RxAction.result, rxReturn, discard_snd]; rfl
  | cell | hv | pdate | soc | ignored | placeholder => rfl

theorem sampleBoth_withFilter : sampleBoth (s.withFilter q ide rtr) = (sampleBoth s).withFilter q ide rtr := by
  rw [sampleBoth_eq, sampleBoth_eq]; rfl

theorem request_withFilter : request (s.withFilter q ide rtr) = (request s).withFilter q ide rtr := by
  rcases request_cases s with ⟨hc, e⟩ | ⟨-, p, pdf, hs, e⟩
  · rcases request_cases (s.withFilter q ide rtr) with ⟨-, e'⟩ | ⟨hc', -⟩
    · rw [e, e']; rfl
    · exact absurd hc' (not_le.2 hc)
  · rw [e]; exact request_of_select (s := s.withFilter q ide rtr) hs

theorem psmStep_withFilter : psmStep (s.withFilter q ide rtr) = (psmStep s).withFilter q ide rtr := by
  have hpsm : (s.withFilter q ide rtr).psm = s.psm := rfl
  unfold psmStep
  rw [hpsm]
  cases s.psm with
  | idle | cooldown => rfl
  | armed => simp only [apply_ite (State.withFilter q ide rtr)]; rfl
  | requesting => exact request_withFilter q ide rtr s

/-- Every event does the same whatever the filter is, and leaves the filter. -/
theorem exec_withFilter {i : Instr} {s t : State} (h : exec i s = .next t) :
    exec i (s.withFilter q ide rtr) = .next (t.withFilter q ide rtr) := by
  cases effect_of_exec h with
  | @rx _ x _ hx => rw [exec_of_rowAction ((rowAction_withFilter ..).trans hx), rxReturn_result_withFilter]
  | loop => rw [exec_loop, sampleBoth_withFilter, psmStep_withFilter]
  | tickMs | tickDs | treset | ack | txReq => rfl

end Filter

/-! ## The frames the acceptance filter presents, and their outcomes (R151, R254) -/

/-- An extended identifier equals a standard one as a number (log 18). -/
theorem extId_eq_stdId_iff {x : ExtId} {id : StdId} :
    x.setWidth 32 = id.setWidth 32 ↔ x = BitVec.ofNat 29 id.toNat := by
  have hx := x.isLt
  have hid := id.isLt
  rw [← BitVec.toNat_inj, ← BitVec.toNat_inj, BitVec.toNat_setWidth, BitVec.toNat_setWidth, BitVec.toNat_ofNat]
  omega

/-- What the filter compares of an identifier: its number, and its frame type where it compares IDE. -/
theorem filterPasses_iff {c : Config} {f : Frame} :
    filterPasses c f = true ↔ (c.filterRtr = true → f.rtr = false) ∧
      (f.id = .std c.respId ∨ c.filterIde = false ∧ f.id = .ext (BitVec.ofNat 29 c.respId.toNat)) := by
  unfold filterPasses
  cases f.id with
  | std id => cases c.filterRtr <;> simp [canIdBits, stdId_inj, and_comm]
  | ext x => cases c.filterRtr <;> simp [canIdBits, extId_eq_stdId_iff, and_comm]

theorem filterPresents_iff {c : Config} {f : RxFrame} :
    filterPresents c f = true ↔ f.queue = c.filterFifo ∧ (c.filterRtr = true → f.frame.rtr = false) ∧
      (f.frame.id = .std c.respId ∨ c.filterIde = false ∧ f.frame.id = .ext (BitVec.ofNat 29 c.respId.toNat)) := by
  rw [filterPresents, Bool.and_eq_true, filterPasses_iff, beq_iff_eq, and_comm]

/-- The dispatch writes a value or does nothing (R152). -/
theorem decodePayload_cases (d : Payload) (s : State) :
    (decodePayload d s).1 = .update ∨ decodePayload d s = (.ignoredTag, s) := by
  unfold decodePayload
  cases tagDest s.cfg d.d3 with
  | cell | hv | pdate | soc => exact .inl rfl
  | nothing => exact .inr rfl

/-- What the demux does with a presented frame: its identifier is RESP_ID, so it is dispatched on its tag unless its frame
type and its queue exclude that (R151, R169). -/
theorem demux_of_filterPresents {f : RxFrame} {s : State} (h : filterPresents s.cfg f = true) :
    demux f s = decodePayload f.frame.data s ∨
    (demux f s = discard .discardType s ∧
      (s.cfg.filterFifo = .primary ∧ s.cfg.filterIde = false ∨
        s.cfg.filterFifo = .secondary ∧ s.cfg.q1StdPolicy = .discard)) ∨
    (demux f s = (.placeholder, s) ∧ s.cfg.filterFifo = .secondary ∧ s.cfg.filterIde = false) := by
  obtain ⟨hq, -, hid⟩ := filterPresents_iff.1 h
  have haccept : acceptStd s.cfg.respId f.frame.data s = decodePayload f.frame.data s := if_pos rfl
  rw [← hq]
  unfold demux
  rcases hid with hid | ⟨hide, hid⟩ <;> rw [hid]
  · cases f.queue with
    | primary => exact .inl haccept
    | secondary =>
      cases s.cfg.q1StdPolicy with
      | discard => exact .inr (.inl ⟨rfl, .inr ⟨rfl, rfl⟩⟩)
      | decode => exact .inl haccept
  · cases f.queue with
    | primary => exact .inr (.inl ⟨rfl, .inl ⟨rfl, hide⟩⟩)
    | secondary => exact .inr (.inr ⟨rfl, rfl, hide⟩)

end Sys2Proof.Machine

namespace Sys2Proof.Claims

open Sys2Proof.Machine

/-- Settles O3: an admitted word decodes to an input event, which completes and leaves the mark as it was. -/
theorem everyAdmittedEventCompletes : Obligations.EveryAdmittedEventCompletes := by
  intro s w rest hinv hf hs hw
  obtain ⟨i, hi, hinput, -⟩ := firstMatchingRowSelectsTheEvent s.cfg w hw
  obtain ⟨t, ht⟩ := exec_completes i (s.withStim rest)
  have hstep : step s = .next t := (stepRunsTheDecodedInstruction s w rest i hf hinv.legal hs hi).trans ht
  exact ⟨t, hstep, (exec_fault_of_input ht hinput hinv.cursor_le).trans hf, exec_stim ht,
    exec_cfg (s := s.withStim rest) ht⟩

/-- Settles O23: on queue 0 with IDE compared, a presented frame can only be dispatched on its tag. -/
theorem filteredFrameIsNeverDiscarded : Obligations.FilteredFrameIsNeverDiscarded := by
  intro f s hq hide h
  rcases demux_of_filterPresents h with e | ⟨-, ⟨-, hno⟩ | ⟨hsec, -⟩⟩ | ⟨-, hsec, -⟩
  · rw [e]
    exact (decodePayload_cases f.frame.data s).imp_right fun hignored => by rw [hignored]; exact ⟨rfl, rfl⟩
  · rw [hide] at hno; cases hno
  all_goals rw [hq] at hsec; cases hsec

/-- Settles O56: what the filter compares, and what the demux does with each kind of presented frame. -/
theorem filterSettingDecidesWhichFramesArrive : Obligations.FilterSettingDecidesWhichFramesArrive := by
  refine fun f s => ⟨filterPresents_iff, fun h => ?_⟩
  rcases demux_of_filterPresents h with e | ⟨e, hset⟩ | ⟨e, hset⟩ <;> rw [e]
  · rcases decodePayload_cases f.frame.data s with hupdate | hignored
    · simp [hupdate]
    · simp [hignored]
  · exact ⟨by simp, fun _ => hset, by simp⟩
  · exact ⟨by simp, by simp, fun _ => hset⟩

/-- Settles O57: the event completes, and its next state is the same up to the filter. -/
theorem effectsDoNotDependOnTheFilter : Obligations.EffectsDoNotDependOnTheFilter := by
  intro i s q ide rtr
  obtain ⟨t, ht⟩ := exec_completes i s
  rw [exec_withFilter q ide rtr ht, ht, andThen]

/-- Settles O13: the action of each of the rows is an update. -/
theorem valueRowsReturnUpdate : Obligations.ValueRowsReturnUpdate := by
  intro k a s i hi
  simp only [List.mem_cons, List.not_mem_nil, or_false] at hi
  rcases hi with rfl | rfl | rfl | rfl
  · exact ⟨_, exec_of_rowAction (rowAction_cellRow s.cfg k a), rfl⟩
  all_goals exact ⟨_, exec_of_rowAction rfl, rfl⟩

end Sys2Proof.Claims

/-! # Proofs: reset, boot and the production date (70_reset_and_hazards.md R281 to R291) -/

namespace Sys2Proof.Machine

/-! ## The reset and launch states (R281, R283) -/

theorem resetWith_cell (c : Config) (k : Fin nCells) : (State.resetWith c).cell[k] = 0 := by
  simp [State.resetWith]

/-- Boot step (4) re-arms the poll slot and leaves the others as at reset. -/
theorem launch_slot (c : Config) (j : Fin nSlots) :
    (State.launch c).slots[j]
      = if j = c.pollSlot then ⟨0, false, true, c.gPoll, c.pPoll⟩ else ⟨0, false, false, .ms, 0⟩ := by
  show ((State.resetWith c).slots.set c.pollSlot ((State.resetWith c).slots[c.pollSlot].rearm c.gPoll))[j] = _
  by_cases h : j = c.pollSlot
  · subst h
    rw [slot_set_self, resetWith_slot, if_pos rfl, if_pos rfl]; rfl
  · rw [slot_set_ne _ _ h, resetWith_slot, if_neg h, if_neg h]

theorem launch_pollSlot (c : Config) : (State.launch c).slots[c.pollSlot] = ⟨0, false, true, c.gPoll, c.pPoll⟩ := by
  rw [launch_slot, if_pos rfl]

/-! ## Boot with ticks before and after step (4) (R283, R285) -/

theorem toggledBy_append (gs gs' : List Gran) (s : State) :
    (s.toggledBy gs).toggledBy gs' = s.toggledBy (gs ++ gs') := by
  induction gs generalizing s with
  | nil => rw [toggledBy_nil, List.nil_append]
  | cons g gs ih => rw [List.cons_append, toggledBy_cons, toggledBy_cons, ih]

/-- From reset a flag shows the parity of its ticks. -/
theorem toggleFlag_launch_toggledBy (c : Config) (gs : List Gran) (g : Gran) :
    toggleFlag g ((State.launch c).toggledBy gs) = decide (gs.count g % 2 = 1) := by
  cases g <;> exact Bool.false_xor _

theorem step_tresetWord {s : State} {j : Fin nSlots} {g : Gran} {rest : List Sw} (hf : s.fault = .none)
    (hl : s.cfg.legal = true) (hs : s.stim = tresetWord j g :: rest) :
    step s = .next (resetSlot j g (s.withStim rest)) := by
  rw [step_of_word hf hl hs, runWord, decode_tresetWord]; rfl

/-- Boot with the ticks `gs` before step (4) ends in the launch state but for the flags: the poll slot, not running
before step (4), has counted none of the ticks. -/
theorem runSteps_boot {c : Config} (hl : c.legal = true) (gs : List Gran) (rest : List Sw) :
    runSteps (gs.length + 1)
        ((State.resetWith c).withStim (gs.map tickWord ++ tresetWord c.pollSlot c.gPoll :: rest))
      = .next (((State.launch c).toggledBy gs).withStim rest) := by
  have hticks := runSteps_tickWords (gs := gs) (rest := tresetWord c.pollSlot c.gPoll :: rest)
    (s := (State.resetWith c).withStim (gs.map tickWord ++ tresetWord c.pollSlot c.gPoll :: rest)) rfl hl rfl
  have hboot := step_tresetWord (j := c.pollSlot) (g := c.gPoll) (rest := rest)
    (s := ((State.resetWith c).withStim (tresetWord c.pollSlot c.gPoll :: rest)).toggledBy gs) rfl hl rfl
  exact (runSteps_add hticks).trans (runSteps_succ hboot)

/-- The launch state starts a wait in IDLE, and after ticks an edge of G_POLL is pending exactly when they are odd in
number. -/
theorem polling_launch_toggledBy (c : Config) (gs : List Gran) :
    Polling (State.launch c) .idle 0 (decide (gs.count c.gPoll % 2 = 1)) ((State.launch c).toggledBy gs) := by
  have hslot : ((State.launch c).toggledBy gs).slots[c.pollSlot] = ⟨0, false, true, c.gPoll, c.pPoll⟩ :=
    launch_pollSlot c
  have hcalm : edgePending c.gPoll (State.launch c) = false := by cases c.gPoll <;> rfl
  exact
    { fault := rfl
      cfg := rfl
      cursor := rfl
      pdf := rfl
      txLog := rfl
      psm := rfl
      cnt := congrArg (·.cnt.toNat) hslot
      run := congrArg (·.run) hslot
      gran := congrArg (·.gran) hslot
      period := congrArg (·.period) hslot
      edge := (edgePending_toggledBy c.gPoll gs (State.launch c)).trans (by rw [hcalm, Bool.false_xor]) }

/-- Ticks and the first LOOP after boot: it counts the pending edge and arms the PSM. -/
theorem runSteps_first_loop {c : Config} (hl : c.legal = true) (pre mid : List Gran) (rest : List Sw) :
    ∃ t, runSteps (mid.length + 1)
        (((State.launch c).toggledBy pre).withStim (mid.map tickWord ++ loopWord :: rest)) = .next t ∧
      t.stim = rest ∧ Polling (State.launch c) .armed (decide ((pre ++ mid).count c.gPoll % 2 = 1)).toNat false t := by
  obtain ⟨-, -, -, -, hpos, hceil, -⟩ := c.legal_iff.1 hl
  have hwait := polling_launch_toggledBy c (pre ++ mid)
  rw [← toggledBy_append] at hwait
  have hticks := runSteps_tickWords (gs := mid) (rest := loopWord :: rest)
    (s := ((State.launch c).toggledBy pre).withStim (mid.map tickWord ++ loopWord :: rest)) rfl hl rfl
  obtain ⟨t, ht, hstim, hpt⟩ := step_polling_loop (s₀ := State.launch c) (rest := rest)
    (s := (((State.launch c).toggledBy pre).toggledBy mid).withStim (loopWord :: rest)) hl { hwait with } (by decide)
    (hpos.trans hceil) rfl
  rw [Nat.zero_add] at hpt
  exact ⟨t, (runSteps_add hticks).trans (runSteps_succ ht), hstim, hpt⟩

/-! ## What a whole run keeps (10_state.md R35, R37) -/

/-- What every step keeps, every run keeps. -/
theorem runSteps_keeps {P : State → Prop} (hstep : ∀ {s t : State}, P s → step s = .next t → P t) {n : Nat}
    {s t : State} (hs : P s) (h : runSteps n s = .next t) : P t := by
  induction n generalizing s with
  | zero => cases h; exact hs
  | succ n ih =>
    obtain ⟨u, hu, h'⟩ := runSteps_succ_next h
    exact ih (hstep hs hu) h'

/-- A run of at least one step begins in a legal configuration (00_scope.md R9). -/
theorem legal_of_runSteps {n : Nat} {s t : State} (h : runSteps (n + 1) s = .next t) : s.cfg.legal = true := by
  obtain ⟨u, hu, -⟩ := runSteps_succ_next h
  obtain ⟨-, hl, -⟩ := step_next hu
  exact hl

/-- A step takes one word if one is to come. -/
theorem step_stim {s t : State} (h : step s = .next t) : t.stim = s.stim.tail := by
  obtain ⟨-, -, ⟨hs, rfl⟩ | ⟨w, rest, hs, hw⟩⟩ := step_next h
  · rw [hs]; rfl
  · rw [hs]
    rcases runWord_cases w (s.withStim rest) with ⟨i, -, e⟩ | ⟨r, -, e⟩ <;> rw [e] at hw
    · exact exec_stim hw
    · cases hw; rfl

theorem runSteps_stim {n : Nat} {s t : State} (h : runSteps n s = .next t) : t.stim = s.stim.drop n := by
  induction n generalizing s with
  | zero => cases h; rfl
  | succ n ih =>
    obtain ⟨u, hu, h'⟩ := runSteps_succ_next h
    rw [ih h', step_stim hu, List.drop_tail]

/-- Slot `j` is running with period `p`. -/
def RunsWithPeriod (j : Fin nSlots) (p : HalfWord) (s : State) : Prop :=
  s.slots[j].run = true ∧ s.slots[j].period = p

/-- No event clears RUN or writes PERIOD. -/
theorem step_runsWithPeriod {j : Fin nSlots} {p : HalfWord} {s t : State} (hs : RunsWithPeriod j p s)
    (h : step s = .next t) : RunsWithPeriod j p t :=
  step_keeps (P := RunsWithPeriod j p) (fun hu _ => hu) (fun hu => hu)
    (fun ⟨hrun, hperiod⟩ he => ⟨exec_run he hrun, (exec_period he j).trans hperiod⟩) hs h

/-! ## The production date (R291, 43_polling_fsm.md R214) -/

/-- With PDF set the indices selected are 0 to 9 and TAG_SOC, which differ from TAG_PDATE (00_scope.md R9). -/
theorem select_ne_tagPdate {c : Config} (hc : c.legal = true) {cur : BitVec 4} {p : Byte} {pdf : Bool}
    (h : select c cur true = some (p, pdf)) : p ≠ c.tagPdate := by
  obtain ⟨-, -, hpdate, hne, -⟩ := c.legal_iff.1 hc
  rcases select_cases c cur true with ⟨h9, e⟩ | ⟨-, e⟩ | ⟨-, e⟩ <;> rw [e] at h <;> cases h
  · intro hp
    rw [← hp, BitVec.toNat_ofNat] at hpdate; omega
  · exact hne

end Sys2Proof.Machine

namespace Sys2Proof.Claims

open Sys2Proof.Machine

/-- Settles O29: boot leaves the launch state with the flags toggled, and the first LOOP counts the one pending edge. -/
theorem firstLoopAfterBootCountsTheParity : Obligations.FirstLoopAfterBootCountsTheParity := by
  intro c pre mid rest hl
  obtain ⟨t, ht, hstim, hpt⟩ := runSteps_first_loop hl pre mid rest
  refine ⟨_, t, runSteps_boot hl pre _, launch_pollSlot c, toggleFlag_launch_toggledBy c pre, ht, hstim, hpt.psm,
    hpt.cnt.trans ?_⟩
  rcases Nat.mod_two_eq_zero_or_one ((pre ++ mid).count c.gPoll) with h | h <;> rw [h] <;> rfl

/-- Settles O30: boot leaves the poll slot running with period P_POLL, and no step after it changes that. -/
theorem bootedPollSlotKeepsRunning : Obligations.BootedPollSlotKeepsRunning := by
  rintro c ws t ⟨pre, post, rfl⟩ hrun
  have hstim := runSteps_stim hrun
  have hlength : (pre.map tickWord ++ tresetWord c.pollSlot c.gPoll :: post).length = pre.length + post.length + 1 := by
    simp [Nat.add_assoc]
  rw [hlength] at hrun
  have hl := legal_of_runSteps hrun
  rw [Nat.add_right_comm] at hrun
  have hafter := (runSteps_add (runSteps_boot (c := c) hl pre post)).symm.trans hrun
  have hlaunch : RunsWithPeriod c.pollSlot c.pPoll (((State.launch c).toggledBy pre).withStim post) :=
    ⟨congrArg (·.run) (launch_pollSlot c), congrArg (·.period) (launch_pollSlot c)⟩
  obtain ⟨hruns, hperiod⟩ := runSteps_keeps step_runsWithPeriod hlaunch hafter
  exact ⟨hruns, hperiod, hstim.trans (List.drop_length ..)⟩

/-- Settles O41: only a REQUESTING pass sends or writes PDF, and with PDF set it selects another index. -/
theorem productionDateIsRequestedOnce : Obligations.ProductionDateIsRequestedOnce := by
  intro i s t hl hpdf h
  by_cases hi : i = .loop
  · subst hi; cases h
    rcases loop_cases s with ⟨-, p, e, -⟩ | ⟨-, -, e⟩ | ⟨-, -, p, pdf, hs, e⟩ <;> rw [e]
    · exact ⟨hpdf, .inl rfl⟩
    · exact ⟨hpdf, .inl rfl⟩
    · exact ⟨(select_pdf hl hs).2 (.inl hpdf), .inr ⟨_, rfl, select_ne_tagPdate hl (hpdf ▸ hs)⟩⟩
  · obtain ⟨-, hkept, -, htx, -⟩ := exec_sameSequencer h hi
    exact ⟨hkept.trans hpdf, .inl htx⟩

/-- Settles O46: the vectors by their elements, every other register by its value in the reset state. -/
theorem resetGivesEveryRegisterItsValue : Obligations.ResetGivesEveryRegisterItsValue :=
  fun s => ⟨resetWith_cell s.cfg, rfl, rfl, rfl, rfl, rfl, rfl, rfl, rfl, rfl, rfl, rfl, rfl, rfl, rfl, rfl,
    resetWith_slot s.cfg⟩

/-- Settles O47: boot step (4) writes the slots only, and of those the poll slot. -/
theorem launchArmsThePollSlot : Obligations.LaunchArmsThePollSlot :=
  fun c => ⟨rfl, launch_slot c⟩

end Sys2Proof.Claims
